-- ==== Sys2Proof/Word.lean ====
section
/-!
DEFINITION. The widths the spec writes (00_scope.md R7, R8): command and response words, the raw sample, selector
codes, the response status.
-/
namespace Sys2Proof

/-- A command word or response word, `CMD_W` = `DATA_W` = 32 bits (R7). -/
abbrev Word := BitVec 32

/-- The raw 24-bit sample of a read (`SAMPLE_BITS`, R7, R70). -/
abbrev Sample := BitVec 24

/-- An eight-bit field (NCH_RAW, DLY). -/
abbrev Byte := BitVec 8

/-- A selector code: the number of selector pulses, 1 to 3; 0 means "not configured" (R27, R66). -/
abbrev SelCode := BitVec 2

/-- The three-bit response status (R62). -/
abbrev Status := BitVec 3

end Sys2Proof
end

