-- ==== Sys2Proof/Syntax.lean ====
section
/-!
DEFINITION. The commands: one constructor per row of spec/opcode_table.json. A constructor carries every bit of the
command word outside its opcode, the ignored bits too (log 5), so that no bit of a word is dropped; that ignored bits
mean nothing is a fact about `exec`, not about this type.
-/
namespace Sys2Proof

/-- A command (R58, R60). -/
inductive Instr where
  /-- OP 0x1, format C: NCH_RAW = c[27:20], ignored c[19:18], SEL = c[17:16], DLY = c[15:8], ignored c[7:0] (R58). -/
  | configure (nchRaw : Byte) (ignHi : BitVec 2) (sel : SelCode) (dly : Byte) (ignLo : Byte)
  /-- OP 0x2, format N. -/
  | poll (ign : BitVec 28)
  /-- OP 0x3, format N. -/
  | powerDown (ign : BitVec 28)
  /-- OP 0x4, format N. -/
  | powerUp (ign : BitVec 28)
  /-- OP 0x5, format N. -/
  | isReady (ign : BitVec 28)
  /-- OP 0x6, format N. -/
  | readStatus (ign : BitVec 28)
  /-- OP 0x0, reserved (R61). -/
  | reservedZero (ign : BitVec 28)
  /-- OP 0x7, reserved (R61). -/
  | reservedSeven (ign : BitVec 28)
  /-- OP 0x8 to 0xF, reserved (R61); `op` is the whole four-bit opcode. -/
  | reservedHigh (op : BitVec 4) (ign : BitVec 28)
  deriving DecidableEq, Repr

end Sys2Proof
end

