-- ==== Sys2Proof/WellFormed.lean ====
section
/-!
DEFINITION. Which terms of `Instr` stand for a command word. Every field has the width of its bits, so one check is
left: the opcode of the row 0x8..0xF has its top bit set (spec/opcode_table.json, mask 0x80000000).
-/
namespace Sys2Proof

/-- The term is some command word's (R60, R61). -/
def Instr.wellFormed : Instr → Bool
  | .configure _ _ _ _ _ => true
  | .poll _ => true
  | .powerDown _ => true
  | .powerUp _ => true
  | .isReady _ => true
  | .readStatus _ => true
  | .reservedZero _ => true
  | .reservedSeven _ => true
  | .reservedHigh op _ => op.msb

end Sys2Proof
end

