-- ==== Sys2Proof/Decode.lean ====
section
/-!
DEFINITION. The decoder of 30_encoding.md (R57 to R60, R64, R65), total on every 32-bit word; after it the encoder,
written from the same tables. What is not one 32-bit word is rejected by name.
-/
namespace Sys2Proof

/-- The opcode field OP = c[31:28] (R57). -/
def fieldOp (c : Word) : BitVec 4 := c.extractLsb' 28 4

/-- Format N: the ignored bits c[27:0] (R58). -/
def fieldRest (c : Word) : BitVec 28 := c.extractLsb' 0 28

/-- Format C: NCH_RAW = c[27:20] (R58, R59). -/
def fieldNchRaw (c : Word) : Byte := c.extractLsb' 20 8

/-- Format C: the ignored bits c[19:18] (R58). -/
def fieldIgnHi (c : Word) : BitVec 2 := c.extractLsb' 18 2

/-- Format C: SEL = c[17:16] (R58, R59). -/
def fieldSel (c : Word) : SelCode := c.extractLsb' 16 2

/-- Format C: DLY = c[15:8] (R58, R59). -/
def fieldDly (c : Word) : Byte := c.extractLsb' 8 8

/-- Format C: the ignored bits c[7:0] (R58). -/
def fieldIgnLo (c : Word) : Byte := c.extractLsb' 0 8

/-- The decoder: the command is chosen by c[31:28] alone, and every word is some command (R60, R64, R65). -/
def decode (c : Word) : Instr :=
  if fieldOp c = 0x1#4 then
    .configure (fieldNchRaw c) (fieldIgnHi c) (fieldSel c) (fieldDly c) (fieldIgnLo c)
  else if fieldOp c = 0x2#4 then .poll (fieldRest c)
  else if fieldOp c = 0x3#4 then .powerDown (fieldRest c)
  else if fieldOp c = 0x4#4 then .powerUp (fieldRest c)
  else if fieldOp c = 0x5#4 then .isReady (fieldRest c)
  else if fieldOp c = 0x6#4 then .readStatus (fieldRest c)
  else if fieldOp c = 0x0#4 then .reservedZero (fieldRest c)
  else if fieldOp c = 0x7#4 then .reservedSeven (fieldRest c)
  else .reservedHigh (fieldOp c) (fieldRest c)

/-- A format-N word: OP in c[31:28], the ignored bits below (R58). -/
def encodeN (op : BitVec 4) (ign : BitVec 28) : Word := op ++ ign

/-- A format-C word (R58). -/
def encodeC (nchRaw : Byte) (ignHi : BitVec 2) (sel : SelCode) (dly ignLo : Byte) : Word :=
  encodeN 0x1#4 (nchRaw ++ ignHi ++ sel ++ dly ++ ignLo)

/-- The encoder, from the formats of R58 and the opcode map of R60. -/
def encode : Instr → Word
  | .configure nchRaw ignHi sel dly ignLo => encodeC nchRaw ignHi sel dly ignLo
  | .poll ign => encodeN 0x2#4 ign
  | .powerDown ign => encodeN 0x3#4 ign
  | .powerUp ign => encodeN 0x4#4 ign
  | .isReady ign => encodeN 0x5#4 ign
  | .readStatus ign => encodeN 0x6#4 ign
  | .reservedZero ign => encodeN 0x0#4 ign
  | .reservedSeven ign => encodeN 0x7#4 ign
  | .reservedHigh op ign => encodeN op ign

/-- The opcode the opcode map gives a command (R60). -/
def Instr.opcode : Instr → BitVec 4
  | .configure _ _ _ _ _ => 0x1#4
  | .poll _ => 0x2#4
  | .powerDown _ => 0x3#4
  | .powerUp _ => 0x4#4
  | .isReady _ => 0x5#4
  | .readStatus _ => 0x6#4
  | .reservedZero _ => 0x0#4
  | .reservedSeven _ => 0x7#4
  | .reservedHigh op _ => op

/-- The mnemonics of R65 ("exactly one of CONFIGURE, POLL, ... or RESERVED"). -/
inductive Mnemonic where
  | configure | poll | powerDown | powerUp | isReady | readStatus | reserved
  deriving DecidableEq, Repr

/-- The mnemonic of a command (spec/opcode_table.json: the last three rows share one). -/
def Instr.mnemonic : Instr → Mnemonic
  | .configure _ _ _ _ _ => .configure
  | .poll _ => .poll
  | .powerDown _ => .powerDown
  | .powerUp _ => .powerUp
  | .isReady _ => .isReady
  | .readStatus _ => .readStatus
  | .reservedZero _ => .reserved
  | .reservedSeven _ => .reserved
  | .reservedHigh _ _ => .reserved

/-- Why a number is no command word. -/
inductive DecodeError where
  /-- A command is exactly one 32-bit word (R64); nothing shorter or longer is one (log 6). -/
  | notOneWord (nbits : Nat)
  deriving DecidableEq, Repr

/-- The decoder on `nbits` bits with value `w`: at most one word, the bits above `nbits` zero (log 6). -/
def decodeBits (nbits w : Nat) : Except DecodeError Instr :=
  if nbits ≤ 32 ∧ w < 2 ^ nbits then .ok (decode (BitVec.ofNat 32 w)) else .error (.notOneWord nbits)

/-- The instruction the decoder reads from a word of spec/opcode_table.json: a command word is a parallel 32-bit word
with no byte order (R48), so its bits are taken as they are numbered. -/
def decodeTableWord (nbits w : Nat) : Option Instr :=
  match decodeBits nbits w with
  | .ok i => some i
  | .error _ => none

end Sys2Proof
end

