-- ==== Sys2Proof/Config.lean ====
section
/-!
DEFINITION. What one implementation fixes (the parameter table of 00_scope.md R7) and the free values of the model.
An opaque constant has no body: every theorem about it holds whatever its value is.
-/
namespace Sys2Proof.Config

/-- `SAMPLE_BITS`: data pulses of a read (R7). -/
def sampleBits : Nat := 24

/-- `DEFAULT_SEL`: the host's construct default "128-equivalent" (R7, R73, D22; log 16). -/
def defaultSel : SelCode := 1

/-- `CAP` default, the source's buffer-capacity (R7, R131, R15). -/
def defaultCap : Nat := 20

/-- FREE VALUE (log 1): the level of `dout_s` at tick `n` where `State.draws` does not give one. R172: "`dout_s` is
an input of every tick, and the model takes it as a draw". -/
opaque doutDraw : Nat → Bool

/-- FREE VALUE (log 12): the selector the chip holds from tick `n` on where its contract determines none, as an index into
the three variants of R66. R36: "unknown to the block"; U4, U5: any value. -/
opaque chipSelector : Nat → Fin 3

/-- FREE VALUE (log 12): the selector under which a sample delivered at tick `n` by a chip outside its contract was
converted, as an index into the three variants of R66 (R175, U7). -/
opaque sampleSelector : Nat → Fin 3

/-- `T_TICK`: the period of `clk`, OPEN (R7, D3; log 15). All times are rationals in one common unit. -/
opaque tTick : Rat

/-- `SYNC_STAGES`: the depth of the `dout` synchronizer, OPEN (R7, R24, D5; log 15). -/
opaque syncStages : Nat

/-- `T_DV`: the chip's data-valid delay, OPEN (R7, U8). -/
opaque tDv : Rat

/-- `T_HI_MIN`: the shortest high level the chip accepts, OPEN (R7, U8). -/
opaque tHiMin : Rat

/-- `T_LO_MIN`: the shortest low level the chip accepts, OPEN (R7, U8). -/
opaque tLoMin : Rat

/-- `T_HI_MAX`: the longest high level that does not power the chip down in a read, OPEN (R7, U8). -/
opaque tHiMax : Rat

/-- `T_PD`: how long the clock line must stay high for the chip to power down, OPEN (R7, R195, D18). -/
opaque tPd : Rat

end Sys2Proof.Config
end

