-- ==== Sys2Proof/Machine/State.lean ====
section
/-!
DEFINITION. The state of the platform as plain data: the engine's fields (10_state.md R27), the levels of its input
ports (R19), what the contract says of the chip (60_exceptions.md R171 to R175), the host with its Channel Store
(45_host_channel_store.md), the coming draws of the environment, and the tick counter. Then `State.reset`.
-/
namespace Sys2Proof.Machine

/-! ## The engine (R27) -/

/-- The sequencing state (R27). -/
inductive Phase where
  | unconf | idle | pdown | rdHi | rdLo | trHi | trLo | commit
  deriving DecidableEq, Repr

/-- The channel count NCH, 1 or 2 (R7, R27). -/
inductive ChanCount where
  | one | two
  deriving DecidableEq, Repr

/-- A logical channel, 1 or 2 (R71). -/
inductive Channel where
  | ch1 | ch2
  deriving DecidableEq, Repr

/-- The engine state: exactly the fields of R27. -/
structure Engine where
  /-- `phase` -/
  phase : Phase
  /-- `cfg_nch` -/
  cfgNch : ChanCount
  /-- `cfg_sel`, 0 = not configured -/
  cfgSel : SelCode
  /-- `cfg_dly`, ticks -/
  cfgDly : Byte
  /-- `pending`, 0 = not configured -/
  pending : SelCode
  /-- `last_ch` -/
  lastCh : Channel
  /-- `acc` -/
  acc : Sample
  /-- `bit_idx`, 0 to 23 -/
  bitIdx : Fin 24
  /-- `pulse_idx`, 0 to 3 -/
  pulseIdx : BitVec 2
  /-- `wait`, ticks left in the current level -/
  wait : Byte
  /-- `sck`, the registered clock line; the pin shows it (R25) -/
  sck : Bool
  /-- `rsp_valid`; the port shows it (R22) -/
  rspValid : Bool
  /-- `rsp_status`; the port shows it (R22) -/
  rspStatus : Status
  /-- `rsp_data`; the port shows it (R22) -/
  rspData : Word
  deriving DecidableEq, Repr

/-- The engine after reset: the table of R30. -/
def Engine.reset : Engine where
  phase := .unconf
  cfgNch := .one
  cfgSel := 0
  cfgDly := 0
  pending := 0
  lastCh := .ch2
  acc := 0x000000#24
  bitIdx := 0
  pulseIdx := 0
  wait := 0
  sck := false
  rspValid := false
  rspStatus := 0b000#3
  rspData := 0x00000000#32

/-! ## The input ports -/

/-- The levels of the block's input ports at one tick (R19); `dout` is the synchronized `dout_s` (R24). -/
structure Pins where
  rst : Bool
  cmdValid : Bool
  cmdData : Word
  dout : Bool
  deriving DecidableEq, Repr

/-- One coming tick's levels of the two input lines that the host's command port does not drive: `rst` (asserted at
any tick, R176) and `dout_s` (any value, R172). -/
structure Draw where
  rst : Bool
  dout : Bool
  deriving DecidableEq, Repr

/-! ## The chip -/

/-- The selector code of an index into the three variants of R66: 1, 2 or 3. -/
def selectorCode (k : Fin 3) : SelCode := BitVec.ofNat 2 (k.val + 1)

/-- The ADC chip's hidden state as far as its contract goes (R35, R174, R175; log 12, 13, 14). Where the contract determines
no selector, the field holds a free value (R36, U4, U5, U7). -/
structure Chip where
  /-- the chip selector: the one of the conversion the next read returns (R35) -/
  sel : SelCode
  /-- `sel` was latched by the pulses of the last completed read under the contract (R174); else it is a free value -/
  latched : Bool
  /-- the selector under which the sample the block delivered last was converted (R96, R174) -/
  sampleSel : SelCode
  /-- rising edges of `sck` seen in the current frame -/
  edges : Nat
  /-- the chip and the block agree where a frame starts, and no timing limit was broken since (R175, R190) -/
  inContract : Bool
  /-- ticks before this one for which the `sck` pin has shown the level it shows now (R175, R191, R195) -/
  levelTicks : Nat
  deriving DecidableEq, Repr

/-! ## The Channel Store (R131 to R133) -/

/-- One ring buffer: `slots` has CAP entries, slot 0 the most recent (R132). -/
structure Ring where
  slots : List Int
  fill : Nat
  deriving DecidableEq, Repr

/-- One calibration slot (R132); the scale is an exact rational (R150). -/
structure Calibration where
  offset : Int
  scale : Rat
  deriving DecidableEq, Repr

/-- The Channel Store of one driver instance: configuration (R131) and state (R132). `rings` holds one ring per logical
channel 1..NCH, in order; the two calibration slots always exist (C4). -/
structure Store where
  cap : Nat
  nch : ChanCount
  rings : List Ring
  cal1 : Calibration
  cal2 : Calibration
  deriving DecidableEq, Repr

/-! ## The host -/

/-- The operands of construct (R15, R73, R131); `none` is an operand left to its default. The bit delay is one of R7's
0..255. -/
structure ConstructArgs where
  /-- buffer capacity -/
  cap : Option Nat
  /-- channel count as requested, any number -/
  cells : Option Nat
  /-- gain -/
  gain : Option Nat
  /-- bit-delay policy, ticks -/
  dly : Option Byte
  deriving DecidableEq, Repr

/-- A call the host program makes: the driver's public surface (R15) and what a host may do at the port (R176). -/
inductive HostCall where
  /-- offer any 32-bit word (R176); its response is recorded as it is -/
  | command (w : Word)
  /-- construct (R73, R131) -/
  | construct (a : ConstructArgs)
  /-- poll-and-ingest (R136) -/
  | pollAndIngest
  /-- average (R138) -/
  | average (ch n : Nat)
  /-- tare-corrected value (R142) -/
  | tareCorrected (ch n : Nat)
  /-- calibrated units (R143) -/
  | calibrated (ch n : Nat)
  /-- tare (R144) -/
  | tare (ch n : Nat)
  /-- a TARE under way that has made `got` successful ingests (R144); `tare` turns into it -/
  | tareLoop (ch n got : Nat)
  /-- set-scale (R147) -/
  | setScale (ch : Nat) (f : Rat)
  /-- set-offset (R147) -/
  | setOffset (ch : Nat) (o : Int)
  /-- power-down (R149) -/
  | powerDown
  /-- power-up (R149) -/
  | powerUp
  /-- let a number of ticks pass (R176: poll at any rate) -/
  | pause (ticks : Nat)
  deriving DecidableEq, Repr

/-- What the response of an offered or accepted command is for. -/
inductive Cont where
  /-- captured and discarded (R176 allows it) -/
  | discard
  /-- recorded as it is -/
  | deliver
  /-- the CONFIGURE of a construct; on OK the store starts (R133, R186) -/
  | construct (cap : Nat) (nch : ChanCount)
  /-- the POLL of a POLL_AND_INGEST (R136) -/
  | ingest
  /-- a POLL of a TARE that has made `got` successful ingests (R144) -/
  | tare (ch n got : Nat)
  deriving DecidableEq, Repr

/-- What a call returned. -/
inductive HostReturn where
  /-- a response as the port showed it (the record of REJECTED responses R162 asks for) -/
  | response (st : Status) (data : Word)
  /-- poll-and-ingest: no data (R136) -/
  | noData
  /-- poll-and-ingest: this channel was updated (R136) -/
  | updated (ch : Channel)
  /-- a value of AVERAGE, TARE_CORRECTED or CALIBRATED -/
  | value (r : Rat)
  /-- a call without a value has finished -/
  | done
  /-- a reset took the response of an accepted command (R183; log 8) -/
  | lost
  deriving DecidableEq, Repr

/-- The host as an agent (R6, R20, R22, R176; log 7). -/
structure HostAgent where
  /-- the calls still to be made, next one first -/
  program : List HostCall
  /-- what the word on the command port is for (meaningless while none is offered) -/
  offering : Cont
  /-- accepted commands whose response has not been captured, oldest first -/
  owed : List Cont
  /-- ticks the host still lets pass -/
  pause : Nat
  /-- what the calls returned, oldest first -/
  returns : List HostReturn
  /-- the Channel Store; none before construct (R133, R134) -/
  store : Option Store
  deriving DecidableEq, Repr

/-! ## The whole -/

/-- The platform at one tick: engine, input ports, chip, host, environment. -/
structure State where
  eng : Engine
  pins : Pins
  chip : Chip
  host : HostAgent
  /-- the levels of `rst` and `dout_s` at the coming ticks; past its end `rst` is low and `dout_s` is free (log 1, 2) -/
  draws : List Draw
  /-- ticks since the run began: the index of the free values (log 1, 12) -/
  tick : Nat
  deriving DecidableEq, Repr

/-- Why a step stops. The block itself has no fault (R159, R180): the one reason is the host's. -/
inductive Fault where
  /-- Raised by the host agent when a POLL's response has a status POLL never gives, or names a channel the host has
  no buffer for (U27: "a fault in its own implementation"; log 11). From reset only a host that configures the block
  anew behind the back of its store comes to it. Safe. -/
  | unexpectedStatus (st : Status)
  deriving DecidableEq, Repr

/-- What the model gives no meaning. No command word is refused: every reason but `notModelled` is a call of the host
program that the spec itself refuses. -/
inductive Refusal where
  /-- Raised by an arm of `exec` whose instruction has no meaning yet; no arm does. Safe. -/
  | notModelled (mnemonic : String)
  /-- Raised by a host call that needs the Channel Store before construct made one (R133, R134; log 9). Safe. -/
  | noDriver
  /-- Raised by construct with capacity 0 (R131, D27, U19). Safe. -/
  | capacityZero
  /-- Raised by construct with a gain S does not map (R73: "An assembler refuses any other g"). Safe. -/
  | gainUnknown (gain : Nat)
  /-- Raised by AVERAGE and what uses it with a count of 0 (R141, R146, U16). Safe. -/
  | averageOfNone
  /-- Raised by AVERAGE, TARE and what uses them on a channel outside 1..NCH (R141, R146, U17). Safe. -/
  | noSuchChannel (ch : Nat)
  /-- Raised by CALIBRATED with scale 0 (R143, U18). Safe. -/
  | scaleZero (ch : Nat)
  /-- Raised by POLL_AND_INGEST whose POLL is REJECTED (R136: "refused (no meaning)"). Safe. -/
  | pollRejected
  deriving DecidableEq, Repr

/-- The chip at reset: its selector is a free value (R36, U4), it is between frames (log 12, 13). -/
def Chip.reset : Chip where
  sel := selectorCode (Config.chipSelector 0)
  latched := false
  sampleSel := selectorCode (Config.sampleSelector 0)
  edges := 0
  inContract := true
  levelTicks := 0

/-- The host at reset: no program, nothing offered, nothing owed, no driver instance (log 3, 7, 9). -/
def HostAgent.reset : HostAgent where
  program := []
  offering := .discard
  owed := []
  pause := 0
  returns := []
  store := none

/-- The machine right after reset: every engine field as R30 says; the fields of the other agents as the log says. -/
def State.reset : State where
  eng := .reset
  pins := { rst := false, cmdValid := false, cmdData := 0, dout := Config.doutDraw 0 }
  chip := .reset
  host := .reset
  draws := []
  tick := 0

end Sys2Proof.Machine
end

