-- ==== Sys2Proof/Machine/Operands.lean ====
section
/-!
DEFINITION. Operand forms and conversions: the normalized channel count (30_encoding.md R59), sign and zero extension
(R9), the deserializer's shift (41_cmd_poll.md R90) and the source's integer form of it (R91), statuses (R62).
-/
namespace Sys2Proof.Machine

/-- NCH: 2 only for NCH_RAW = 2, else 1 (R59, D8). -/
def chanCount (nchRaw : Byte) : ChanCount := if nchRaw = 2 then .two else .one

/-- The channel count as a number (R7). -/
def ChanCount.toNat : ChanCount → Nat
  | .one => 1
  | .two => 2

/-- "3 - ch": the other channel (R97). -/
def Channel.other : Channel → Channel
  | .ch1 => .ch2
  | .ch2 => .ch1

/-- The channel's number (R71). -/
def Channel.toNat : Channel → Nat
  | .ch1 => 1
  | .ch2 => 2

/-- Response status codes (R62). -/
def statusOk : Status := 0b000#3
/-- CH1 (R62). -/
def statusCh1 : Status := 0b001#3
/-- CH2 (R62). -/
def statusCh2 : Status := 0b010#3
/-- NO_DATA (R62). -/
def statusNoData : Status := 0b011#3
/-- REJECTED (R62). -/
def statusRejected : Status := 0b100#3

/-- The status a read's response has (R62, R114). -/
def Channel.status : Channel → Status
  | .ch1 => statusCh1
  | .ch2 => statusCh2

/-- `sext_32(w)` (R9, R93). -/
def sampleWord (w : Sample) : Word := w.signExtend 32

/-- `zext_32(b)` of one bit (R9, R63). -/
def flagWord (b : Bool) : Word := (BitVec.ofBool b).setWidth 32

/-- One bit into the deserializer: `acc[22:0] ++ b` (R90). -/
def shiftIn (acc : Sample) (b : Bool) : Sample := acc.extractLsb' 0 23 ++ BitVec.ofBool b

/-- The register after sampling `bits`, first bit first, starting from `acc` (R90). -/
def deserialize (acc : Sample) : List Bool → Sample
  | [] => acc
  | b :: bs => deserialize (shiftIn acc b) bs

/-- The first bit's seed of the source's accumulator: -1 if set, else 0 (R91). -/
def seedInt (b : Bool) : Int := if b then -1 else 0

/-- The source's recurrence a_(k+1) = 2 a_k + b_(k+1) (R91). -/
def accumulateFrom (a : Int) : List Bool → Int
  | [] => a
  | b :: bs => accumulateFrom (2 * a + (if b then 1 else 0)) bs

/-- The source's accumulator form of a whole frame's bits (R91). -/
def accumulate : List Bool → Int
  | [] => 0
  | b :: bs => accumulateFrom (seedInt b) bs

/-- The value of the delivered word as the host reads it, an s32 (R93, R136). -/
def sampleValue (d : Word) : Int := d.toInt

end Sys2Proof.Machine
end

