-- ==== Sys2Proof/Machine/Flags.lean ====
section
/-!
DEFINITION. The derived status flags and the STATUS word (10_state.md R31, R32). The block has no condition codes.
-/
namespace Sys2Proof.Machine

/-- READY: phase IDLE and `dout_s` low (R31). -/
def Engine.flagReady (dout : Bool) (e : Engine) : Bool := decide (e.phase = .idle) && !dout

/-- CONFIGURED (R31). -/
def Engine.flagConfigured (e : Engine) : Bool := decide (e.phase ≠ .unconf)

/-- PDOWN (R31). -/
def Engine.flagPdown (e : Engine) : Bool := decide (e.phase = .pdown)

/-- NCH2 (R31). -/
def Engine.flagNch2 (e : Engine) : Bool := decide (e.cfgNch = .two)

/-- LAST2 (R31). -/
def Engine.flagLast2 (e : Engine) : Bool := decide (e.lastCh = .ch2)

/-- The STATUS word, from bit 31 down to bit 0 (R32): reserved, DLY, reserved, DOUT, SCK, LAST2, PENDING, CFG_SEL, NCH2,
PDOWN, CONFIGURED, READY. -/
def Engine.statusWord (dout : Bool) (e : Engine) : Word :=
  0#8 ++ e.cfgDly ++ 0#5 ++ BitVec.ofBool dout ++ BitVec.ofBool e.sck ++ BitVec.ofBool e.flagLast2 ++ e.pending
    ++ e.cfgSel ++ BitVec.ofBool e.flagNch2 ++ BitVec.ofBool e.flagPdown ++ BitVec.ofBool e.flagConfigured
    ++ BitVec.ofBool (e.flagReady dout)

end Sys2Proof.Machine
end

