-- ==== Sys2Proof/Machine/Ops.lean ====
section
/-!
DEFINITION. The named operations over the engine's registers and ports: responding (10_state.md R22), readiness for a
command and acceptance (R20, R21), applying an engine function inside the state. The block has no memory (R46), and no
exception to take or return from (60_exceptions.md R159, R164), so there are no such operations.
-/
namespace Sys2Proof.Machine

/-- `respond(st, d)` (R22). -/
def Engine.respond (st : Status) (d : Word) (e : Engine) : Engine :=
  { e with rspValid := true, rspStatus := st, rspData := d }

/-- A tick at which no `respond` is executed: the strobe falls, the other response registers keep their values (R22). -/
def Engine.quiet (e : Engine) : Engine := { e with rspValid := false }

/-- `respond(REJECTED, 0)` (R61, R161). -/
def Engine.reject (e : Engine) : Engine := e.respond statusRejected 0

/-- The phase accepts commands: UNCONF, IDLE or PDOWN (R21). -/
def Phase.ready : Phase → Bool
  | .unconf => true
  | .idle => true
  | .pdown => true
  | .rdHi => false
  | .rdLo => false
  | .trHi => false
  | .trLo => false
  | .commit => false

/-- `cmd_ready`, a combinational function of the phase (R21). -/
def Engine.cmdReady (e : Engine) : Bool := e.phase.ready

/-- A command is accepted at this tick: offered, ready, and no reset (R20). -/
def State.accepted (s : State) : Bool := s.pins.cmdValid && s.eng.cmdReady && !s.pins.rst

/-- The state with another engine; ports, chip, host and environment stay. -/
def State.withEngine (s : State) (e : Engine) : State := { s with eng := e }

/-- The state with other levels on its input ports. -/
def State.drive (s : State) (p : Pins) : State := { s with pins := p }

end Sys2Proof.Machine
end

