-- ==== Sys2Proof/Machine/Sequencer.lean ====
section
/-!
DEFINITION. The tick-level wire sequencer (42_wire_sequencer.md): the phases of a read, the COMMIT tick with the channel
sequencer (41_cmd_poll.md R97), and the tick of the block when no command is accepted.
-/
namespace Sys2Proof.Machine

/-- The channel COMMIT attributes the read to (R97). -/
def Engine.attribution (e : Engine) : Channel :=
  match e.cfgNch with
  | .one => .ch1
  | .two => e.lastCh.other

/-- The pending selector COMMIT leaves (R97). -/
def Engine.nextPending (e : Engine) : SelCode :=
  match e.cfgNch with
  | .one => e.pending
  | .two => if e.attribution = .ch1 then e.cfgSel else 2

/-- COMMIT(): attribution and the advance of the two-field state machine (R97). -/
def Engine.commit (e : Engine) : Engine :=
  { e with lastCh := e.attribution, pending := e.nextPending }

/-- One more tick of the current level has passed (R108 to R111: `s.wait <- s.wait - 1`). -/
def Engine.waitTick (e : Engine) : Engine := { e with wait := e.wait - 1 }.quiet

/-- The next level of `sck` begins and lasts `cfg_dly + 1` ticks (R106). -/
def Engine.level (ph : Phase) (sck : Bool) (e : Engine) : Engine :=
  { e with phase := ph, sck := sck, wait := e.cfgDly }.quiet

/-- Phase RD_HI: sample at the last tick of the high level (R108). -/
def Engine.tickRdHi (dout : Bool) (e : Engine) : Engine :=
  if 0 < e.wait then e.waitTick
  else { e with acc := shiftIn e.acc dout }.level .rdLo false

/-- Phase RD_LO (R109). -/
def Engine.tickRdLo (e : Engine) : Engine :=
  if 0 < e.wait then e.waitTick
  else if e.bitIdx < 23 then { e with bitIdx := e.bitIdx + 1 }.level .rdHi true
  else { e with pulseIdx := 1 }.level .trHi true

/-- Phase TR_HI; `dout_s` is not sampled (R110). -/
def Engine.tickTrHi (e : Engine) : Engine :=
  if 0 < e.wait then e.waitTick else e.level .trLo false

/-- Phase TR_LO (R111). -/
def Engine.tickTrLo (e : Engine) : Engine :=
  if 0 < e.wait then e.waitTick
  else if e.pulseIdx < e.pending then { e with pulseIdx := e.pulseIdx + 1 }.level .trHi true
  else { e with phase := .commit }.quiet

/-- Phase COMMIT: FINISH(s) (R114). -/
def Engine.finish (e : Engine) : Engine :=
  { e.commit.respond e.attribution.status (sampleWord e.acc) with bitIdx := 0, pulseIdx := 0, phase := .idle }

/-- The tick of the block without reset when it accepts no command: a read phase advances, COMMIT finishes, and UNCONF,
IDLE and PDOWN change nothing but the strobe (R105, R112). -/
def Engine.advance (dout : Bool) (e : Engine) : Engine :=
  match e.phase with
  | .unconf => e.quiet
  | .idle => e.quiet
  | .pdown => e.quiet
  | .rdHi => e.tickRdHi dout
  | .rdLo => e.tickRdLo
  | .trHi => e.tickTrHi
  | .trLo => e.tickTrLo
  | .commit => e.finish

/-- The block's tick while a command with effect `run` is offered and `rst` is low: where the phase accepts commands the
command runs; else it is not accepted, the block's own tick goes on and the offer has no effect (R20, R21, R105; log 4). -/
def State.whenReady (s : State) (run : Engine) : Host.Outcome State Fault Refusal :=
  if s.eng.cmdReady then .next (s.withEngine run) else .next (s.withEngine (s.eng.advance s.pins.dout))

end Sys2Proof.Machine
end

