-- ==== Sys2Proof/Machine/Chip.lean ====
section
/-!
DEFINITION. The ADC chip as far as its contract goes (60_exceptions.md R171 to R175, 10_state.md R35, R36): which
selector it has latched, seen from the clock line alone. The chip counts the rising edges of `sck` in a frame; a completed
frame of 24 + N pulses latches N (R174). Where the contract determines nothing the selector is a free value, a new one each
time (log 12). Every level the pin shows is held against the chip's limits (R175, R191, R195; log 14).
-/
namespace Sys2Proof.Machine

/-- The phases of a read (R21: "RD_HI, RD_LO, TR_HI, TR_LO, COMMIT"). -/
def Phase.reading (p : Phase) : Bool := !p.ready

/-! ## The chip's limits, for a level of `n` ticks -/

/-- How long `n` ticks last. -/
def ticksTime (n : Nat) : Rat := n * Config.tTick

/-- A low level long enough (R191, second inequality). -/
def lowMet (n : Nat) : Bool := decide (Config.tLoMin ≤ ticksTime n)

/-- A high level long enough and too short to power the chip down (R191, first and fourth inequality). -/
def highMet (n : Nat) : Bool := decide (Config.tHiMin ≤ ticksTime n) && decide (ticksTime n < Config.tHiMax)

/-- The bit is on `dout_s` by the last tick of a high level (R191, third inequality). -/
def dataMet (n : Nat) : Bool := decide (Config.tDv + ticksTime Config.syncStages ≤ ticksTime n)

/-- A high level long enough to power the chip down (R195). -/
def powerDownMet (n : Nat) : Bool := decide (Config.tPd ≤ ticksTime n)

/-- Every level of a read with bit delay `d` is inside the limits: the four inequalities of R191. The block does not
check them. -/
def levelTimingMet (d : Byte) : Bool := lowMet (d.toNat + 1) && highMet (d.toNat + 1) && dataMet (d.toNat + 1)

/-- What the tick from engine `e` to `e'` shows of the limits outside PDOWN, the pin having shown its level for `n` ticks:
a level that ends must have been long enough, and the bit of a data pulse is sampled at its end (R108). -/
def edgeTimingMet (e e' : Engine) (n : Nat) : Bool :=
  if e.sck = e'.sck then true
  else if e'.sck then lowMet n
  else highMet n && (decide (e.phase ≠ .rdHi) || dataMet n)

/-! ## What the chip sees -/

/-- The selector a completed frame of `edges` pulses latches: N for 24 + N pulses, N in 1..3 (R66, R69, R174). -/
def frameSelector (edges : Nat) : Option SelCode :=
  if Config.sampleBits < edges ∧ edges ≤ Config.sampleBits + 3 then some (BitVec.ofNat 2 (edges - Config.sampleBits))
  else none

/-- Edges after a tick that takes the engine from `e` to `e'`: one more where `sck` rises (R25). -/
def Chip.edgesAfter (e e' : Engine) (c : Chip) : Nat := if !e.sck && e'.sck then c.edges + 1 else c.edges

/-- Ticks at the present level after that tick: none yet where the pin takes another level (R25). -/
def Chip.levelAfter (e e' : Engine) (c : Chip) : Nat := if e.sck = e'.sck then c.levelTicks + 1 else 0

/-- The selector becomes one that the contract does not determine: the free value of tick `n` (R36, U4, U5, U7). -/
def Chip.undetermined (n : Nat) (c : Chip) : Chip :=
  { c with sel := selectorCode (Config.chipSelector n), latched := false }

/-- The frame that ends latches its selector (R174). -/
def Chip.latch (n : Nat) (c : Chip) : Chip :=
  match frameSelector c.edges with
  | some k => { c with sel := k, latched := true }
  | none => c.undetermined n

/-- A reset tick (R36, R170, R183): a read cut short leaves the contract; from PDOWN the chip powers up. -/
def Chip.onReset (n : Nat) (e : Engine) (c : Chip) : Chip :=
  { c.undetermined n with
    edges := 0
    inContract :=
      if e.phase.reading then false
      else if e.phase = .pdown then powerDownMet (c.levelTicks + 1)
      else c.inContract }

/-- The COMMIT tick: the read is complete. Under the contract its sample was converted under the selector latched before,
and the frame's own pulses latch the next (R35, R96, R174); else both are free values (R175, U7). -/
def Chip.onReadDone (n : Nat) (c : Chip) : Chip :=
  if c.inContract then { c.latch n with sampleSel := c.sel, edges := 0 }
  else { c.undetermined n with sampleSel := selectorCode (Config.sampleSelector n), edges := 0 }

/-- The tick of a POWER_UP that ends PDOWN: the selector is not determined (R36, R193), and the chip starts afresh if it
was powered down long enough (R190, R195). -/
def Chip.onPowerUp (n : Nat) (c : Chip) : Chip :=
  { c.undetermined n with edges := 0, inContract := powerDownMet (c.levelTicks + 1) }

/-- Any other tick: an edge is counted, and the level it ends is held against the limits (R175). -/
def Chip.onLevel (e e' : Engine) (c : Chip) : Chip :=
  { c with edges := c.edgesAfter e e', inContract := c.inContract && edgeTimingMet e e' (c.levelTicks + 1) }

/-- What a tick is to the chip. -/
def Chip.react (n : Nat) (rst : Bool) (e e' : Engine) (c : Chip) : Chip :=
  if rst then c.onReset n e
  else if e.phase = .commit then c.onReadDone n
  else if e.phase = .pdown then if e'.phase = .pdown then c else c.onPowerUp n
  else c.onLevel e e'

/-- The chip over one tick that takes the engine from `e` to `e'`; `n` is the index of the next tick. -/
def Chip.observe (n : Nat) (rst : Bool) (e e' : Engine) (c : Chip) : Chip :=
  { c.react n rst e e' with levelTicks := c.levelAfter e e' }

/-- The chip's move in the tick from `s`, whose engine tick gave `t`. -/
def chipTick (s t : State) : State := { t with chip := s.chip.observe (s.tick + 1) s.pins.rst s.eng t.eng }

end Sys2Proof.Machine
end

