-- ==== Sys2Proof/Machine/ConfigStatus.lean ====
section
/-!
DEFINITION. The meanings of CONFIGURE, IS_READY and READ_STATUS (40_cmd_config_status.md).
-/
namespace Sys2Proof.Machine

/-- The pending selector a CONFIGURE leaves: request B with two channels, else the configured selector (R77, D12). -/
def initialPending (nch : ChanCount) (sel : SelCode) : SelCode :=
  match nch with
  | .one => sel
  | .two => 2

/-- A CONFIGURE that takes effect (R77). -/
def Engine.configured (nchRaw : Byte) (sel : SelCode) (dly : Byte) (e : Engine) : Engine :=
  { e with
    cfgNch := chanCount nchRaw
    cfgSel := sel
    cfgDly := dly
    lastCh := .ch2
    pending := initialPending (chanCount nchRaw) sel
    phase := .idle }.respond statusOk 0

/-- CONFIGURE (R77 to R79): rejected outside UNCONF and for SEL = 0; the ignored bits have no effect. -/
def execConfigure (nchRaw : Byte) (_ignHi : BitVec 2) (sel : SelCode) (dly _ignLo : Byte) (s : State) :
    Host.Outcome State Fault Refusal :=
  s.whenReady (if s.eng.phase ≠ .unconf then s.eng.reject
    else if sel = 0 then s.eng.reject
    else s.eng.configured nchRaw sel dly)

/-- IS_READY (R81, R82). -/
def execIsReady (_ign : BitVec 28) (s : State) : Host.Outcome State Fault Refusal :=
  s.whenReady (s.eng.respond statusOk (flagWord (s.eng.flagReady s.pins.dout)))

/-- READ_STATUS (R83, R84). -/
def execReadStatus (_ign : BitVec 28) (s : State) : Host.Outcome State Fault Refusal :=
  s.whenReady (s.eng.respond statusOk (s.eng.statusWord s.pins.dout))

end Sys2Proof.Machine
end

