-- ==== Sys2Proof/Machine/Poll.lean ====
section
/-!
DEFINITION. The meaning of POLL at the tick it is accepted: the readiness gate and the read start (41_cmd_poll.md R87 to
R89, 42_wire_sequencer.md R107). The read's later ticks are the sequencer's; the transaction level is
Machine/Transaction.lean.
-/
namespace Sys2Proof.Machine

/-- Read start (R107). No response is made. -/
def Engine.readStart (e : Engine) : Engine :=
  { e with acc := 0x000000#24, bitIdx := 0, pulseIdx := 0 }.level .rdHi true

/-- POLL at its acceptance tick, by phase (R87 to R89). In a read phase it is not accepted, and this is not reached. -/
def Engine.poll (dout : Bool) (e : Engine) : Engine :=
  if e.phase = .unconf then e.reject
  else if e.phase = .pdown then e.respond statusNoData 0
  else if dout then e.respond statusNoData 0
  else e.readStart

/-- POLL. -/
def execPoll (_ign : BitVec 28) (s : State) : Host.Outcome State Fault Refusal :=
  s.whenReady (s.eng.poll s.pins.dout)

end Sys2Proof.Machine
end

