-- ==== Sys2Proof/Machine/Power.lean ====
section
/-!
DEFINITION. The meanings of POWER_DOWN and POWER_UP (43_cmd_power.md).
-/
namespace Sys2Proof.Machine

/-- POWER_DOWN by phase (R123, R126). -/
def Engine.powerDown (e : Engine) : Engine :=
  if e.phase = .unconf then e.reject
  else if e.phase = .pdown then e.respond statusOk 0
  else { e with sck := true, phase := .pdown }.respond statusOk 0

/-- POWER_UP by phase (R124, R126). -/
def Engine.powerUp (e : Engine) : Engine :=
  if e.phase = .unconf then e.reject
  else if e.phase = .idle then e.respond statusOk 0
  else { e with sck := false, phase := .idle }.respond statusOk 0

/-- POWER_DOWN. -/
def execPowerDown (_ign : BitVec 28) (s : State) : Host.Outcome State Fault Refusal :=
  s.whenReady s.eng.powerDown

/-- POWER_UP. -/
def execPowerUp (_ign : BitVec 28) (s : State) : Host.Outcome State Fault Refusal :=
  s.whenReady s.eng.powerUp

end Sys2Proof.Machine
end

