-- ==== Sys2Proof/Machine/Reserved.lean ====
section
/-!
DEFINITION. The meanings of the reserved opcodes (30_encoding.md R61): REJECTED, no state change, in every phase that
accepts commands. One definition per row of spec/opcode_table.json.
-/
namespace Sys2Proof.Machine

/-- OP 0x0 (R61). -/
def execReservedZero (_ign : BitVec 28) (s : State) : Host.Outcome State Fault Refusal :=
  s.whenReady s.eng.reject

/-- OP 0x7 (R61). -/
def execReservedSeven (_ign : BitVec 28) (s : State) : Host.Outcome State Fault Refusal :=
  s.whenReady s.eng.reject

/-- OP 0x8 to 0xF (R61). -/
def execReservedHigh (_op : BitVec 4) (_ign : BitVec 28) (s : State) : Host.Outcome State Fault Refusal :=
  s.whenReady s.eng.reject

end Sys2Proof.Machine
end

