-- ==== Sys2Proof/Machine/Dispatch.lean ====
section
/-! DEFINITION. One arm per command: `exec i s` is the block's tick with the command `i` on its port and `rst` low. -/

namespace Sys2Proof.Machine
open Sys2Proof

def exec (i : Instr) (s : State) : Host.Outcome State Fault Refusal :=
  match i with
  | .configure nchRaw ignHi sel dly ignLo => Sys2Proof.Machine.execConfigure nchRaw ignHi sel dly ignLo s
  | .poll ign => Sys2Proof.Machine.execPoll ign s
  | .powerDown ign => Sys2Proof.Machine.execPowerDown ign s
  | .powerUp ign => Sys2Proof.Machine.execPowerUp ign s
  | .isReady ign => Sys2Proof.Machine.execIsReady ign s
  | .readStatus ign => Sys2Proof.Machine.execReadStatus ign s
  | .reservedZero ign => Sys2Proof.Machine.execReservedZero ign s
  | .reservedSeven ign => Sys2Proof.Machine.execReservedSeven ign s
  | .reservedHigh op ign => Sys2Proof.Machine.execReservedHigh op ign s

end Sys2Proof.Machine
end

