-- ==== Sys2Proof/Machine/Assembler.lean ====
section
/-!
DEFINITION. The assembly syntax (30_encoding.md R72) and the pseudo-instruction CONSTRUCT (R73). A line is a list of
characters; what R72 does not say of its text is log 18.
-/
namespace Sys2Proof.Machine

/-- Why the assembler refuses a line. -/
inductive AsmError where
  /-- the mnemonic is none of R72's and R73's -/
  | unknownMnemonic
  /-- an operand is omitted (R72) -/
  | missingOperand
  /-- an operand's value is out of range; `sel=0` too (R72) -/
  | outOfRange
  /-- CONSTRUCT with a gain S does not map (R73) -/
  | unknownGain
  /-- not of the form R72 gives: a bad number, an unknown or repeated operand, operands where there are none -/
  | malformed
  deriving DecidableEq, Repr

/-- S: the selector code of a gain (R73, D22; log 16). -/
def gainCode (gain : Nat) : Option SelCode :=
  if gain = 128 then some Config.defaultSel
  else if gain = 64 then some 3
  else if gain = 32 then some 2
  else none

/-- `CONFIGURE nch=<0..255>, sel=<1..3>, dly=<0..255>`, every ignored bit 0 (R72). -/
def asmConfigure (nch sel dly : Nat) : Except AsmError Word :=
  if nch ≤ 255 ∧ 1 ≤ sel ∧ sel ≤ 3 ∧ dly ≤ 255 then
    .ok (encode (.configure (BitVec.ofNat 8 nch) 0 (BitVec.ofNat 2 sel) (BitVec.ofNat 8 dly) 0))
  else .error .outOfRange

/-- The default of construct's channel count (R73). -/
def defaultCells : Nat := 1

/-- The default of construct's gain, "128-equivalent" (R73). -/
def defaultGain : Nat := 128

/-- The buffer capacity of a construct (R131). -/
def ConstructArgs.capacity (a : ConstructArgs) : Nat := a.cap.getD Config.defaultCap

/-- The gain of a construct (R73). -/
def ConstructArgs.gainValue (a : ConstructArgs) : Nat := a.gain.getD defaultGain

/-- NCH_RAW of a construct: the requested count, which the host truncates to the field first (D8; log 21). -/
def ConstructArgs.nchRaw (a : ConstructArgs) : Byte := BitVec.ofNat 8 (a.cells.getD defaultCells)

/-- The bit delay of a construct (R73). -/
def ConstructArgs.delay (a : ConstructArgs) : Byte := a.dly.getD 0

/-- `CONSTRUCT cells=<n>, gain=<g>, dly=<d>` (R73). -/
def asmConstruct (cells gain dly : Nat) : Except AsmError Word :=
  match gainCode gain with
  | none => .error .unknownGain
  | some sel => asmConfigure cells sel.toNat dly

/-- The commands without operands (R72). -/
def asmPlain : Mnemonic → Option Word
  | .poll => some (encode (.poll 0))
  | .powerDown => some (encode (.powerDown 0))
  | .powerUp => some (encode (.powerUp 0))
  | .isReady => some (encode (.isReady 0))
  | .readStatus => some (encode (.readStatus 0))
  | .configure => none
  | .reserved => none

/-! ## The text of a line -/

/-- A character that separates words. -/
def isBlank (c : Char) : Bool := c == ' ' || c == '\t'

/-- Without blanks at its start. -/
def trimLeft (l : List Char) : List Char := l.dropWhile isBlank

/-- Without blanks at either end. -/
def trim (l : List Char) : List Char := (trimLeft (trimLeft l).reverse).reverse

/-- The pieces between separators; always at least one piece. -/
def pieces (sep : Char) : List Char → List (List Char)
  | [] => [[]]
  | c :: cs =>
    match pieces sep cs with
    | [] => [[c]]
    | p :: ps => if c == sep then [] :: p :: ps else (c :: p) :: ps

/-- A digit's value in the given base, 10 or 16. -/
def digitValue (hex : Bool) (c : Char) : Option Nat :=
  if '0' ≤ c ∧ c ≤ '9' then some (c.toNat - 48)
  else if hex ∧ 'a' ≤ c ∧ c ≤ 'f' then some (c.toNat - 87)
  else if hex ∧ 'A' ≤ c ∧ c ≤ 'F' then some (c.toNat - 55)
  else none

/-- The value of digits after the value `acc` of those before. -/
def digitsFrom (hex : Bool) (acc : Nat) : List Char → Option Nat
  | [] => some acc
  | c :: cs =>
    match digitValue hex c with
    | none => none
    | some v => digitsFrom hex (acc * (if hex then 16 else 10) + v) cs

/-- An operand value: decimal, or hexadecimal after `0x` (R72). -/
def number : List Char → Option Nat
  | '0' :: 'x' :: c :: cs => digitsFrom true 0 (c :: cs)
  | c :: cs => digitsFrom false 0 (c :: cs)
  | [] => none

/-- One operand `name=value`. -/
def operand (l : List Char) : Option (List Char × Nat) :=
  match pieces '=' l with
  | [k, v] => (number (trim v)).map fun n => (trim k, n)
  | _ => none

/-- The operands of a line, separated by commas, in any order (R72); none for a text that is not of that form. -/
def operands (l : List Char) : Option (List (List Char × Nat)) :=
  if trim l = [] then some [] else (pieces ',' l).mapM operand

/-- Every operand's name is one of `names`, and none stands twice. -/
def namesOk (names : List (List Char)) (ops : List (List Char × Nat)) : Bool :=
  ops.all (fun o => names.contains o.1) && decide (ops.map Prod.fst).Nodup

/-- The mnemonic of a command without operands, as R72 spells it. -/
def plainMnemonic (m : List Char) : Option Mnemonic :=
  if m = "POLL".toList then some .poll
  else if m = "POWER_DOWN".toList then some .powerDown
  else if m = "POWER_UP".toList then some .powerUp
  else if m = "IS_READY".toList then some .isReady
  else if m = "READ_STATUS".toList then some .readStatus
  else none

/-- The operands of a CONFIGURE line: all three, none defaulted (R72). -/
def asmConfigureLine (ops : List (List Char × Nat)) : Except AsmError Word :=
  if !namesOk ["nch".toList, "sel".toList, "dly".toList] ops then .error .malformed
  else
    match ops.lookup "nch".toList, ops.lookup "sel".toList, ops.lookup "dly".toList with
    | some nch, some sel, some dly => asmConfigure nch sel dly
    | _, _, _ => .error .missingOperand

/-- The command word a construct issues (R73, R131); none where S does not map the gain. -/
def ConstructArgs.word (a : ConstructArgs) : Option Word :=
  match asmConstruct a.nchRaw.toNat a.gainValue a.delay.toNat with
  | .ok w => some w
  | .error _ => none

/-- The operands of a CONSTRUCT line, each in the range its CONFIGURE admits (R72, R73). The buffer capacity is no operand
of it and keeps its default (R73, L1.3). -/
def constructOperands (ops : List (List Char × Nat)) : Except AsmError ConstructArgs :=
  if !namesOk ["cells".toList, "gain".toList, "dly".toList] ops then .error .malformed
  else
    let cells := ops.lookup "cells".toList
    let gain := ops.lookup "gain".toList
    let dly := ops.lookup "dly".toList
    match asmConstruct (cells.getD defaultCells) (gain.getD defaultGain) (dly.getD 0) with
    | .error e => .error e
    | .ok _ => .ok { cap := none, cells := cells, gain := gain, dly := dly.map (BitVec.ofNat 8) }

/-- A CONSTRUCT line (R73). -/
def asmConstructLine (ops : List (List Char × Nat)) : Except AsmError Word :=
  match constructOperands ops with
  | .error e => .error e
  | .ok a =>
    match a.word with
    | none => .error .unknownGain
    | some w => .ok w

/-- A mnemonic with its operands. -/
def asmCommand (m : List Char) (ops : List (List Char × Nat)) : Except AsmError Word :=
  if m = "CONFIGURE".toList then asmConfigureLine ops
  else if m = "CONSTRUCT".toList then asmConstructLine ops
  else
    match (plainMnemonic m).bind asmPlain with
    | none => .error .unknownMnemonic
    | some w => if ops = [] then .ok w else .error .malformed

/-- The mnemonic and the operands of one line: a comment starts at `;`, and a line may hold nothing else (R72). -/
def lineParts (line : List Char) : Except AsmError (Option (List Char × List (List Char × Nat))) :=
  let text := trim (line.takeWhile (· != ';'))
  if text = [] then .ok none
  else
    match operands (text.dropWhile fun c => !isBlank c) with
    | none => .error .malformed
    | some ops => .ok (some (text.takeWhile fun c => !isBlank c, ops))

/-- One line's command word; a line without a command gives none (R72). -/
def assembleLine (line : List Char) : Except AsmError (Option Word) :=
  match lineParts line with
  | .error e => .error e
  | .ok none => .ok none
  | .ok (some (m, ops)) => (asmCommand m ops).map some

/-- The host's call a command stands for: a CONSTRUCT is the driver's construct (R73), any other line offers its word. -/
def callOf (m : List Char) (ops : List (List Char × Nat)) : Except AsmError HostCall :=
  if m = "CONSTRUCT".toList then (constructOperands ops).map .construct else (asmCommand m ops).map .command

/-- One line as a call of the host program. -/
def lineCall (line : List Char) : Except AsmError (Option HostCall) :=
  match lineParts line with
  | .error e => .error e
  | .ok none => .ok none
  | .ok (some (m, ops)) => (callOf m ops).map some

end Sys2Proof.Machine
end

