-- ==== Sys2Proof/Machine/Store.lean ====
section
/-!
DEFINITION. The Channel Store (45_host_channel_store.md): ring buffers, averages, calibration. Averages are exact
rationals (R150, log 16); a case the spec refuses is an error by name (R141, R143, R146).
-/
namespace Sys2Proof.Machine

/-- An empty ring of `cap` zero slots (R133). -/
def Ring.empty (cap : Nat) : Ring := { slots := List.replicate cap 0, fill := 0 }

/-- A calibration slot at construct: offset 0, scale 1.0 (R133). -/
def Calibration.initial : Calibration := { offset := 0, scale := 1 }

/-- The store at construct (R131 to R133). -/
def Store.initial (cap : Nat) (nch : ChanCount) : Store where
  cap := cap
  nch := nch
  rings := List.replicate nch.toNat (Ring.empty cap)
  cal1 := .initial
  cal2 := .initial

/-- PUSH on one ring: shift and insert, the oldest falls out (R135). -/
def Ring.push (cap : Nat) (v : Int) (r : Ring) : Ring :=
  { slots := (v :: r.slots).take cap, fill := min (r.fill + 1) cap }

/-- The ring of channel `ch`, for `ch` in 1..NCH (R132). -/
def Store.ring? (st : Store) (ch : Nat) : Option Ring :=
  match ch with
  | 0 => none
  | k + 1 => st.rings[k]?

/-- PUSH(ch, v) (R135); none where the channel has no ring. -/
def Store.push (st : Store) (ch : Channel) (v : Int) : Option Store :=
  match st.ring? ch.toNat with
  | none => none
  | some r => some { st with rings := st.rings.set (ch.toNat - 1) (r.push st.cap v) }

/-- The calibration slot of channel 1 or 2 (R132, C4). -/
def Store.cal? (st : Store) (ch : Nat) : Option Calibration :=
  match ch with
  | 1 => some st.cal1
  | 2 => some st.cal2
  | _ => none

/-- AVERAGE(ch, n): the most recent min(n, CAP) slots over that count, whatever the fill (R138, R139, C2, C3). -/
def Store.average (st : Store) (ch n : Nat) : Except Refusal Rat :=
  match st.ring? ch with
  | none => .error (.noSuchChannel ch)
  | some r =>
    if min n st.cap = 0 then .error .averageOfNone
    else .ok (((r.slots.take (min n st.cap)).sum : Int) / (min n st.cap : Nat))

/-- TARE_CORRECTED(ch, n) (R142). -/
def Store.tareCorrected (st : Store) (ch n : Nat) : Except Refusal Rat :=
  match st.average ch n, st.cal? ch with
  | .error r, _ => .error r
  | .ok _, none => .error (.noSuchChannel ch)
  | .ok a, some c => .ok (a - c.offset)

/-- CALIBRATED(ch, n); scale 0 is refused (R143). -/
def Store.calibrated (st : Store) (ch n : Nat) : Except Refusal Rat :=
  match st.tareCorrected ch n, st.cal? ch with
  | .error r, _ => .error r
  | .ok _, none => .error (.noSuchChannel ch)
  | .ok a, some c => if c.scale = 0 then .error (.scaleZero ch) else .ok (a / c.scale)

/-- SET_SCALE: no validation beyond the channel number, 1 or 2 (R147). -/
def Store.setScale (st : Store) (ch : Nat) (f : Rat) : Store :=
  match ch with
  | 1 => { st with cal1 := { st.cal1 with scale := f } }
  | 2 => { st with cal2 := { st.cal2 with scale := f } }
  | _ => st

/-- SET_OFFSET: no validation beyond the channel number, 1 or 2 (R147). -/
def Store.setOffset (st : Store) (ch : Nat) (o : Int) : Store :=
  match ch with
  | 1 => { st with cal1 := { st.cal1 with offset := o } }
  | 2 => { st with cal2 := { st.cal2 with offset := o } }
  | _ => st

/-- Truncation toward zero (R151). -/
def truncRat (r : Rat) : Int := r.num.tdiv r.den

/-- The successful ingests TARE makes: `n * NCH` (R144). -/
def Store.tareCount (st : Store) (n : Nat) : Nat := n * st.nch.toNat

/-- The end of TARE: the offset becomes the truncated average (R144, R151). -/
def Store.tareEnd (st : Store) (ch n : Nat) : Except Refusal Store :=
  match st.average ch n with
  | .error r => .error r
  | .ok a => .ok (st.setOffset ch (truncRat a))

end Sys2Proof.Machine
end

