-- ==== Sys2Proof/Machine/HostAgent.lean ====
section
/-!
DEFINITION. The host (00_scope.md R6, 60_exceptions.md R176): it offers command words and holds them until they are
accepted (R20), captures each response in the one tick it is shown (R22, R23), and runs the procedures of
45_host_channel_store.md one at a time. What the spec leaves open of its own pace is log 7 and log 8.
-/
namespace Sys2Proof.Machine

/-- Sequencing of outcomes: the first stop ends it. -/
def andThen {α β : Type} (o : Host.Outcome α Fault Refusal) (k : α → Host.Outcome β Fault Refusal) :
    Host.Outcome β Fault Refusal :=
  match o with
  | .next a => k a
  | .fault r => .fault r
  | .refused r => .refused r

/-- A value or its refusal as an outcome. -/
def ofExcept {α : Type} : Except Refusal α → Host.Outcome α Fault Refusal
  | .ok a => .next a
  | .error r => .refused r

/-- The host after a call returned `r`. -/
def HostAgent.returned (r : HostReturn) (h : HostAgent) : HostAgent := { h with returns := h.returns ++ [r] }

/-! ## Capturing a response -/

/-- PUSH of the delivered sample into a channel's ring (R135, R136). -/
def HostAgent.push (ch : Channel) (d : Word) (h : HostAgent) :
    Host.Outcome (HostAgent × Option Channel) Fault Refusal :=
  match h.store with
  | none => .refused .noDriver
  | some st =>
    match st.push ch (sampleValue d) with
    | none => .fault (.unexpectedStatus ch.status)
    | some st' => .next ({ h with store := some st' }, some ch)

/-- The host half of POLL_AND_INGEST on its response: which channel was updated, or none (R136). -/
def HostAgent.ingest (st : Status) (d : Word) (h : HostAgent) :
    Host.Outcome (HostAgent × Option Channel) Fault Refusal :=
  if st = statusNoData then .next (h, none)
  else if st = statusCh1 then h.push .ch1 d
  else if st = statusCh2 then h.push .ch2 d
  else if st = statusRejected then .refused .pollRejected
  else .fault (.unexpectedStatus st)

/-- The result of POLL_AND_INGEST (R136). -/
def ingestReturn : Option Channel → HostReturn
  | none => .noData
  | some ch => .updated ch

/-- What the host does with a captured response, by what it is for. -/
def HostAgent.answer (st : Status) (d : Word) (h : HostAgent) : Cont → Host.Outcome HostAgent Fault Refusal
  | .discard => .next h
  | .deliver => .next (h.returned (.response st d))
  | .construct cap nch =>
    if st = statusOk then .next ({ h with store := some (.initial cap nch) }.returned (.response st d))
    else .next (h.returned (.response st d))
  | .ingest => andThen (h.ingest st d) fun r => .next (r.1.returned (ingestReturn r.2))
  | .tare ch n got =>
    andThen (h.ingest st d) fun r =>
      .next { r.1 with program := .tareLoop ch n (if r.2.isSome then got + 1 else got) :: r.1.program }

/-- The host takes the response shown at this tick, if any, for the oldest accepted command (R22, R53). -/
def HostAgent.capture (e : Engine) (h : HostAgent) : Host.Outcome HostAgent Fault Refusal :=
  if e.rspValid then
    match h.owed with
    | [] => .next h
    | k :: rest => { h with owed := rest }.answer e.rspStatus e.rspData k
  else .next h

/-- A reset takes the responses still owed (R183; log 8). DESIGN CHOICE (log 23): a command whose response a reset took no
longer counts against quiescence (R180), so a run with an abandoned POLL can be quiescent again. -/
def HostAgent.abandon (h : HostAgent) : HostAgent :=
  { h with owed := [], returns := h.returns ++ h.owed.map fun _ => .lost }

/-! ## Making the next call -/

/-- The response is only recorded or discarded: no procedure waits for it. -/
def Cont.raw : Cont → Bool
  | .discard => true
  | .deliver => true
  | .construct _ _ => false
  | .ingest => false
  | .tare _ _ _ => false

/-- A port-level act, which may come before earlier raw responses; procedures run to completion one by one (file 45). -/
def HostCall.raw : HostCall → Bool
  | .command _ => true
  | .pause _ => true
  | _ => false

/-- The host may begin this call now. -/
def HostAgent.mayBegin (h : HostAgent) (c : HostCall) : Bool :=
  if c.raw then h.owed.all Cont.raw else h.owed.isEmpty

/-- The host offers the word `w`, whose response is for `k`. -/
def HostAgent.offer (w : Word) (k : Cont) (h : HostAgent) : Host.Outcome (HostAgent × Option Word) Fault Refusal :=
  .next ({ h with offering := k }, some w)

/-- A call that needs the store and returns a value. -/
def HostAgent.compute (f : Store → Except Refusal Rat) (h : HostAgent) :
    Host.Outcome (HostAgent × Option Word) Fault Refusal :=
  match h.store with
  | none => .refused .noDriver
  | some st => andThen (ofExcept (f st)) fun v => .next (h.returned (.value v), none)

/-- A call that changes the store and returns no value. -/
def HostAgent.change (f : Store → Except Refusal Store) (h : HostAgent) :
    Host.Outcome (HostAgent × Option Word) Fault Refusal :=
  match h.store with
  | none => .refused .noDriver
  | some st => andThen (ofExcept (f st)) fun st' => .next ({ h with store := some st' }.returned .done, none)

/-- TARE's loop with `got` successful ingests made: poll again, or set the offset (R144). -/
def HostAgent.tareLoop (ch n got : Nat) (h : HostAgent) : Host.Outcome (HostAgent × Option Word) Fault Refusal :=
  match h.store with
  | none => .refused .noDriver
  | some st =>
    if got < st.tareCount n then h.offer (encode (.poll 0)) (.tare ch n got)
    else h.change fun st => st.tareEnd ch n

/-- TARE: the refused cases first (R146), then the loop (R144). -/
def HostAgent.tare (ch n : Nat) (h : HostAgent) : Host.Outcome (HostAgent × Option Word) Fault Refusal :=
  match h.store with
  | none => .refused .noDriver
  | some st =>
    if (st.ring? ch).isNone then .refused (.noSuchChannel ch)
    else if n = 0 then .refused .averageOfNone
    else h.tareLoop ch n 0

/-- construct: the CONFIGURE it issues, and the store it will start, with the channel count the block derives (R73, R131,
R153). -/
def HostAgent.construct (a : ConstructArgs) (h : HostAgent) : Host.Outcome (HostAgent × Option Word) Fault Refusal :=
  if a.capacity = 0 then .refused .capacityZero
  else
    match a.word with
    | some w => h.offer w (.construct a.capacity (chanCount a.nchRaw))
    | none => .refused (.gainUnknown a.gainValue)

/-- The first move of a call: the host after it and the word it offers, if any. -/
def HostAgent.begin (h : HostAgent) : HostCall → Host.Outcome (HostAgent × Option Word) Fault Refusal
  | .command w => h.offer w .deliver
  | .construct a => h.construct a
  | .pollAndIngest => h.offer (encode (.poll 0)) .ingest
  | .average ch n => h.compute fun st => st.average ch n
  | .tareCorrected ch n => h.compute fun st => st.tareCorrected ch n
  | .calibrated ch n => h.compute fun st => st.calibrated ch n
  | .tare ch n => h.tare ch n
  | .tareLoop ch n got => h.tareLoop ch n got
  | .setScale ch f => h.change fun st => .ok (st.setScale ch f)
  | .setOffset ch o => h.change fun st => .ok (st.setOffset ch o)
  | .powerDown => h.offer (encode (.powerDown 0)) .deliver
  | .powerUp => h.offer (encode (.powerUp 0)) .deliver
  | .pause ticks => .next ({ h with pause := ticks }, none)

/-- The host's next move while it offers nothing: let a tick pass, or begin the next call if it may. -/
def HostAgent.proceed (h : HostAgent) : Host.Outcome (HostAgent × Option Word) Fault Refusal :=
  match h.pause with
  | p + 1 => .next ({ h with pause := p }, none)
  | 0 =>
    match h.program with
    | [] => .next (h, none)
    | c :: rest => if h.mayBegin c then { h with program := rest }.begin c else .next (h, none)

/-! ## The host's tick -/

/-- The host after the response and the acceptance of this tick: the response shown is captured first, a reset takes what
is still owed, and the accepted command's response is owed from now on. -/
def hostSettle (s : State) : Host.Outcome HostAgent Fault Refusal :=
  andThen (s.host.capture s.eng) fun h =>
    .next (if s.pins.rst then h.abandon
      else if s.accepted then { h with owed := h.owed ++ [h.offering] }
      else h)

/-- The command port at the next tick: the word the host offers, or no offer. -/
def State.withOffer (t : State) (h : HostAgent) (w : Option Word) : State :=
  match w with
  | none => { t with host := h, pins := { t.pins with cmdValid := false } }
  | some w => { t with host := h, pins := { t.pins with cmdValid := true, cmdData := w } }

/-- The host's move in the tick from `s`, whose engine tick gave `t`: an offer that was not accepted is held (R20). -/
def hostTick (s t : State) : Host.Outcome State Fault Refusal :=
  andThen (hostSettle s) fun h =>
    if s.pins.cmdValid && !s.accepted then .next { t with host := h }
    else andThen h.proceed fun r => .next (t.withOffer r.1 r.2)

end Sys2Proof.Machine
end

