-- ==== Sys2Proof/Machine/Tick.lean ====
section
/-!
DEFINITION. One tick of the block from its ports (42_wire_sequencer.md R105), runs of the block alone under arbitrary port
levels, and the passing of time in the environment.
-/
namespace Sys2Proof.Machine

/-- RESET(s): every engine field takes its value of R30 (R181). -/
def State.resetEngine (s : State) : State := s.withEngine .reset

/-- STEP(s, inputs) of R105: reset first, then a command on the port, then the block's own tick. -/
def engineTick (s : State) : Host.Outcome State Fault Refusal :=
  if s.pins.rst then .next s.resetEngine
  else if s.pins.cmdValid then exec (decode s.pins.cmdData) s
  else .next (s.withEngine (s.eng.advance s.pins.dout))

/-- One tick of the block alone under the port levels `p`: any host, any chip. -/
def blockTick (p : Pins) (s : State) : Host.Outcome State Fault Refusal := engineTick (s.drive p)

/-- The block alone under a list of port levels, one a tick. -/
def blockRun : List Pins → State → Host.Outcome State Fault Refusal
  | [], s => .next s
  | p :: ps, s => andThen (blockTick p s) (blockRun ps)

/-- The reads that finish in such a run, in order: the channel each is attributed to and the selector code it emitted,
`pending` at its end, which is `pending` throughout the read (R95, R97, R114). -/
def readsOf : List Pins → State → List (Channel × SelCode)
  | [], _ => []
  | p :: ps, s =>
    let rest := match blockTick p s with
      | .next t => readsOf ps t
      | .fault _ => []
      | .refused _ => []
    if s.eng.phase = .commit ∧ p.rst = false then (s.eng.attribution, s.eng.pending) :: rest else rest

/-- Time passes: the coming tick's `rst` and `dout_s` stand on the ports (log 1, 2). -/
def State.advanceTime (s : State) : State :=
  match s.draws with
  | d :: ds => { s with pins := { s.pins with rst := d.rst, dout := d.dout }, draws := ds, tick := s.tick + 1 }
  | [] => { s with pins := { s.pins with rst := false, dout := Config.doutDraw (s.tick + 1) }, tick := s.tick + 1 }

/-- The other agents' moves in the tick from `s`, whose engine tick gave `t`, and the passing of time. -/
def platformTick (s t : State) : Host.Outcome State Fault Refusal :=
  andThen (hostTick s (chipTick s t)) fun u => .next u.advanceTime

/-- The host's offer of the word `w` at this tick, with `rst` low; its response is recorded. -/
def State.offerNow (s : State) (w : Word) : State :=
  { s with
    pins := { s.pins with rst := false, cmdValid := true, cmdData := w }
    host := { s.host with offering := .deliver } }

end Sys2Proof.Machine
end

