-- ==== Sys2Proof/Machine/Step.lean ====
section
/-!
DEFINITION. One step: one tick of the platform, all three agents (00_scope.md R6). The engine ticks on its ports; then the
chip has seen the clock line, the host has seen the ports, and the next tick's levels stand.
-/
namespace Sys2Proof.Machine

/-- One tick. -/
def step (s : State) : Host.Outcome State Fault Refusal := andThen (engineTick s) (platformTick s)

/-- The state in which the command word of value `w` stands on the command port, so that the very next step runs it: the
block fetches nothing, its commands arrive on `cmd_data` (R26, R55; log 3). -/
def State.withFetchWord (s : State) (_nbits w : Nat) : State := s.offerNow (BitVec.ofNat 32 w)

end Sys2Proof.Machine
end

