-- ==== Sys2Proof/Machine/Transaction.lean ====
section
/-!
DEFINITION. The transaction level (00_scope.md R11, 41_cmd_poll.md R87): a whole command as one step. It differs from the
tick level for a reading POLL only; 42_wire_sequencer.md R120 says when the two agree. And the numbers of the waveform
(R115 to R119), counted in ticks from the POLL's acceptance.
-/
namespace Sys2Proof.Machine

/-- The engine after a whole reading POLL that read the word `w` (R87, R97, R114, R120). -/
def Engine.afterRead (w : Sample) (e : Engine) : Engine :=
  { e.commit.respond e.attribution.status (sampleWord w) with
    acc := w, bitIdx := 0, pulseIdx := 0, wait := 0, sck := false, phase := .idle }

/-- POLL at transaction level, with the word the chip presents (R87 to R89). -/
def Engine.pollTransaction (dout : Bool) (w : Sample) (e : Engine) : Engine :=
  if e.phase = .idle ∧ dout = false then e.afterRead w else e.poll dout

/-- A whole command as one step; `w` is the word the chip presents if the command reads (R11). -/
def transaction (i : Instr) (w : Sample) (s : State) : Host.Outcome State Fault Refusal :=
  if i.mnemonic = .poll then s.whenReady (s.eng.pollTransaction s.pins.dout w) else exec i s

/-- P = 24 + N pulses of a read (R69, R115). -/
def framePulses (n : SelCode) : Nat := Config.sampleBits + n.toNat

/-- Pulse `j` rises at this tick (R115). -/
def riseTick (d : Byte) (j : Nat) : Nat := 1 + 2 * j * (d.toNat + 1)

/-- Pulse `j` falls at this tick (R115). -/
def fallTick (d : Byte) (j : Nat) : Nat := 1 + (2 * j + 1) * (d.toNat + 1)

/-- Data bit `k` is `dout_s` at this tick (R116). -/
def sampleTick (d : Byte) (k : Nat) : Nat := (2 * k + 1) * (d.toNat + 1)

/-- The COMMIT tick (R118). -/
def commitTick (n : SelCode) (d : Byte) : Nat := 2 * framePulses n * (d.toNat + 1) + 1

/-- The tick at which the response is visible (R118, R119). -/
def responseTick (n : SelCode) (d : Byte) : Nat := 2 * framePulses n * (d.toNat + 1) + 2

/-- The level of the `sck` pin `k` ticks after acceptance, within the read (R115, R117). -/
def sckAt (n : SelCode) (d : Byte) (k : Nat) : Bool :=
  decide (1 ≤ k ∧ k ≤ 2 * framePulses n * (d.toNat + 1) ∧ (k - 1) / (d.toNat + 1) % 2 = 0)

/-- The data bits of a read from the port levels of its ticks; `ps` starts at the acceptance tick (R116). -/
def frameBits (d : Byte) (ps : List Pins) : List Bool :=
  (List.range Config.sampleBits).map fun k =>
    match ps[sampleTick d k]? with
    | some p => p.dout
    | none => false

end Sys2Proof.Machine
end

