-- ==== Sys2Proof/Safety.lean ====
section
/-!
DEFINITION. What claims are stated in: the invariants of 10_state.md R33 and the further facts that make them inductive,
the one-response-per-command relation of R22, the chip in step with the block (R35, R71, R174), the Channel Store's shape
(R132), quiescence (60_exceptions.md R180) and a run without REJECTED (R162).
-/
namespace Sys2Proof.Machine

/-! ## The engine's invariants (R33) -/

/-- INV1. -/
abbrev Engine.Inv1 (e : Engine) : Prop :=
  e.phase = .unconf → e.cfgSel = 0 ∧ e.pending = 0 ∧ e.cfgNch = .one ∧ e.lastCh = .ch2

/-- INV2. -/
abbrev Engine.Inv2 (e : Engine) : Prop := e.phase ≠ .unconf → e.cfgSel ≠ 0 ∧ e.pending ≠ 0

/-- INV3. -/
abbrev Engine.Inv3 (e : Engine) : Prop := e.phase ≠ .unconf → e.cfgNch = .one → e.pending = e.cfgSel

/-- INV4. -/
abbrev Engine.Inv4 (e : Engine) : Prop :=
  e.phase ≠ .unconf → e.cfgNch = .two → e.pending = if e.lastCh = .ch2 then 2 else e.cfgSel

/-- INV5. -/
abbrev Engine.Inv5 (e : Engine) : Prop :=
  e.sck = true ↔ e.phase = .pdown ∨ e.phase = .rdHi ∨ e.phase = .trHi

/-- INV6. -/
abbrev Engine.Inv6 (e : Engine) : Prop := e.wait ≤ e.cfgDly

/-- INV7. -/
abbrev Engine.Inv7 (e : Engine) : Prop :=
  e.phase = .trHi ∨ e.phase = .trLo → 1 ≤ e.pulseIdx ∧ e.pulseIdx ≤ e.pending

/-- INV1 to INV7 together. -/
abbrev Engine.Inv (e : Engine) : Prop :=
  e.Inv1 ∧ e.Inv2 ∧ e.Inv3 ∧ e.Inv4 ∧ e.Inv5 ∧ e.Inv6 ∧ e.Inv7

/-- Between reads the sequencer's counters are at rest (R30, R114, R120), and no level is being timed in COMMIT: what makes
INV6 survive a CONFIGURE. -/
abbrev Engine.AtRest (e : Engine) : Prop :=
  (e.phase.ready = true → e.wait = 0 ∧ e.bitIdx = 0 ∧ e.pulseIdx = 0) ∧ (e.phase = .commit → e.wait = 0)

/-- The inductive invariant of the engine. -/
abbrev Engine.StrongInv (e : Engine) : Prop := e.Inv ∧ e.AtRest

/-! ## One response per accepted command (R22) -/

/-- Accepted commands without a captured response are at most one: the read in progress, or the response being shown. -/
abbrev State.ResponsesOwed (s : State) : Prop :=
  s.host.owed.length = if s.eng.phase.ready = true ∧ s.eng.rspValid = false then 0 else 1

/-- The strobe is down while a read is in progress (R22, R107). -/
abbrev State.StrobeDown (s : State) : Prop := s.eng.phase.ready = false → s.eng.rspValid = false

/-! ## The chip in step with the block (R35, R174) -/

/-- The rising edges the sequencer has made in the frame (R115); one in PDOWN, where POWER_DOWN raised the line. -/
def Engine.edgesMade (e : Engine) : Nat :=
  match e.phase with
  | .unconf => 0
  | .idle => 0
  | .pdown => 1
  | .rdHi => e.bitIdx.val + 1
  | .rdLo => e.bitIdx.val + 1
  | .trHi => Config.sampleBits + e.pulseIdx.toNat
  | .trLo => Config.sampleBits + e.pulseIdx.toNat
  | .commit => Config.sampleBits + e.pending.toNat

/-- The chip has seen exactly those. -/
abbrev State.EdgesInStep (s : State) : Prop := s.chip.edges = s.eng.edgesMade

/-- The selector that the read attributed next should have been converted under: what the last read emitted. With one
channel that is the configured selector; with two, code 2 after a channel-1 read and the configured selector after a
channel-2 read (R68, R97). -/
def Engine.emittedLast (e : Engine) : SelCode :=
  match e.cfgNch with
  | .one => e.cfgSel
  | .two => if e.lastCh = .ch1 then 2 else e.cfgSel

/-- Where the chip has latched its selector, it is the one the last read emitted (R35). -/
abbrev State.SelectorInStep (s : State) : Prop :=
  s.chip.latched = true → s.eng.phase ≠ .unconf ∧ s.chip.sel = s.eng.emittedLast

/-- The phases in which a level is being timed (R106). -/
def Phase.timed : Phase → Bool
  | .rdHi => true
  | .rdLo => true
  | .trHi => true
  | .trLo => true
  | .unconf => false
  | .idle => false
  | .pdown => false
  | .commit => false

/-- In a timed phase the level has stood for the ticks that `wait` no longer counts: it lasts `cfg_dly + 1` (R106). -/
abbrev State.LevelInStep (s : State) : Prop :=
  s.eng.phase.timed = true → s.chip.levelTicks + s.eng.wait.toNat = s.eng.cfgDly.toNat

/-- The chip's part of the invariant. -/
abbrev State.ChipInStep (s : State) : Prop := s.eng.StrongInv ∧ s.EdgesInStep ∧ s.SelectorInStep ∧ s.LevelInStep

/-! ## The Channel Store (R132) -/

/-- A ring has CAP slots and a fill of at most CAP. -/
abbrev Ring.wf (cap : Nat) (r : Ring) : Prop := r.slots.length = cap ∧ r.fill ≤ cap

/-- `st'` is `st` with the sample `v` pushed into the ring of channel `ch`, `r` before, and
nothing else changed: R135 written out, without the machine's own PUSH. -/
abbrev Store.Pushed (st : Store) (ch : Channel) (r : Ring) (v : Int) (st' : Store) : Prop :=
  st'.ring? ch.toNat = some { slots := (v :: r.slots).take st.cap, fill := min (r.fill + 1) st.cap } ∧
  (∀ k, k ≠ ch.toNat → st'.ring? k = st.ring? k) ∧
  st'.cap = st.cap ∧ st'.nch = st.nch ∧ st'.cal1 = st.cal1 ∧ st'.cal2 = st.cal2

/-- CAP at least 1, one well-formed ring per channel (R131, R132). -/
abbrev Store.wf (st : Store) : Prop :=
  1 ≤ st.cap ∧ st.rings.length = st.nch.toNat ∧ ∀ r ∈ st.rings, r.wf st.cap

/-- The host never starts a store of capacity 0 (R131, D27). -/
def Cont.wf : Cont → Bool
  | .construct cap _ => decide (1 ≤ cap)
  | .discard => true
  | .deliver => true
  | .ingest => true
  | .tare _ _ _ => true

/-- The host's store is well-formed, and so is each store it is about to start. -/
def HostAgent.wf (h : HostAgent) : Prop :=
  (∀ st, h.store = some st → st.wf) ∧ h.offering.wf = true ∧ ∀ k ∈ h.owed, k.wf = true

/-! ## Runs -/

/-- Quiescent (R180): a phase that waits, no command offered, every accepted command answered. DESIGN CHOICE (log 22): a
command has had its response once the host has captured it, so the tick that shows the response (`rsp_valid` = 1) is not
yet quiescent and the tick after it may be. DESIGN CHOICE (log 23): a command that a reset abandoned, which never gets a
response (R183), does not keep later ticks from being quiescent. -/
abbrev State.quiescent (s : State) : Prop :=
  s.eng.phase.ready = true ∧ s.pins.cmdValid = false ∧ s.host.owed = []

/-- No REJECTED response has been recorded (R162: a run that needs one is not a good run). -/
def State.goodRun (s : State) : Bool :=
  s.host.returns.all fun r =>
    match r with
    | .response st _ => decide (st ≠ statusRejected)
    | _ => true

end Sys2Proof.Machine
end

