-- ==== Sys2Proof/Certificates/Slice0/Obligations.lean ====
section
/-!
DEFINITION. The statements for the provers, each from numbered rules of spec/. Result statements are equations of the whole
next state, so each says its frame too: what it does not name is unchanged.
-/

open Sys2Proof Sys2Proof.Machine

/-! ## Encodings -/

/-- R57, R58, R60: the decoder reads back what the encoder wrote, for every well-formed command and every operand. -/
def Obligations.DecodeEncodeRoundTrip : Prop :=
  ∀ i : Instr, i.wellFormed = true → decode (encode i) = i

/-- R57, R58, R65: every word is the encoding of the well-formed command it decodes to; no bit is dropped. -/
def Obligations.EncodeDecodeRoundTrip : Prop :=
  ∀ c : Word, (decode c).wellFormed = true ∧ encode (decode c) = c

/-- R65 with the table of R60: each word decodes to exactly one mnemonic, by c[31:28] alone. -/
def Obligations.DecoderFollowsOpcodeMap : Prop :=
  ∀ c : Word,
    ((decode c).mnemonic = .configure ↔ c.toNat / 2 ^ 28 = 1) ∧
    ((decode c).mnemonic = .poll ↔ c.toNat / 2 ^ 28 = 2) ∧
    ((decode c).mnemonic = .powerDown ↔ c.toNat / 2 ^ 28 = 3) ∧
    ((decode c).mnemonic = .powerUp ↔ c.toNat / 2 ^ 28 = 4) ∧
    ((decode c).mnemonic = .isReady ↔ c.toNat / 2 ^ 28 = 5) ∧
    ((decode c).mnemonic = .readStatus ↔ c.toNat / 2 ^ 28 = 6) ∧
    ((decode c).mnemonic = .reserved ↔ c.toNat / 2 ^ 28 = 0 ∨ 7 ≤ c.toNat / 2 ^ 28)

/-- R58, R59: the operands of CONFIGURE are the unsigned fields c[27:20], c[17:16] and c[15:8], and the channel count is 2
for NCH_RAW = 2 and 1 for every other value. -/
def Obligations.ConfigureOperandFields : Prop :=
  ∀ c : Word, c.toNat / 2 ^ 28 = 1 →
    ∃ nchRaw ignHi sel dly ignLo, decode c = .configure nchRaw ignHi sel dly ignLo ∧
      nchRaw.toNat = c.toNat / 2 ^ 20 % 2 ^ 8 ∧ sel.toNat = c.toNat / 2 ^ 16 % 2 ^ 2 ∧
      dly.toNat = c.toNat / 2 ^ 8 % 2 ^ 8 ∧
      (chanCount nchRaw = if c.toNat / 2 ^ 20 % 2 ^ 8 = 2 then ChanCount.two else ChanCount.one)

/-- The vectors L2.1 of 95_test_vectors.md: what these words decode as. -/
def Obligations.DecodesSpecVectors : Prop :=
  decode 0x00000000 = .reservedZero 0 ∧
  decode 0x10110000 = .configure 1 0 1 0 0 ∧
  decode 0x1FFFFFFF = .configure 0xFF 3 3 0xFF 0xFF ∧
  decode 0x20000000 = .poll 0 ∧
  decode 0x2ABCDEF0 = .poll 0xABCDEF0 ∧
  decode 0x30000000 = .powerDown 0 ∧
  decode 0x40000000 = .powerUp 0 ∧
  decode 0x50000000 = .isReady 0 ∧
  decode 0x5ABCDEF1 = .isReady 0xABCDEF1 ∧
  decode 0x60000000 = .readStatus 0 ∧
  decode 0x6FFFFFFF = .readStatus 0xFFFFFFF ∧
  decode 0x70000000 = .reservedSeven 0 ∧
  decode 0x80000000 = .reservedHigh 8 0 ∧
  decode 0xFFFFFFFF = .reservedHigh 15 0xFFFFFFF

/-- R58, R61: the bits a format does not name change no command's meaning. -/
def Obligations.IgnoredBitsMeanNothing : Prop :=
  (∀ (n : Byte) (sel : SelCode) (d : Byte) (h h' : BitVec 2) (l l' : Byte) (s : State),
    exec (.configure n h sel d l) s = exec (.configure n h' sel d l') s) ∧
  ∀ (x y : BitVec 28) (s : State),
    exec (.poll x) s = exec (.poll y) s ∧ exec (.powerDown x) s = exec (.powerDown y) s ∧
    exec (.powerUp x) s = exec (.powerUp y) s ∧ exec (.isReady x) s = exec (.isReady y) s ∧
    exec (.readStatus x) s = exec (.readStatus y) s ∧ exec (.reservedZero x) s = exec (.reservedZero y) s ∧
    exec (.reservedSeven x) s = exec (.reservedSeven y) s ∧
    ∀ op op', exec (.reservedHigh op x) s = exec (.reservedHigh op' y) s

/-! ## The step -/

/-- R20, R105: a step with a command on the port and `rst` low is `exec` of the command the word decodes to, then the other
agents' moves and the passing of time; the state made by `withFetchWord` steps so for every 32-bit word. -/
def Obligations.StepRunsDecodedCommand : Prop :=
  (∀ s : State, s.pins.rst = false → s.pins.cmdValid = true →
    step s = andThen (exec (decode s.pins.cmdData) s) (platformTick s)) ∧
  ∀ (s : State) (w : Nat) (i : Instr), decodeTableWord 32 w = some i →
    step (s.withFetchWord 32 w) = andThen (exec i (s.withFetchWord 32 w)) (platformTick (s.withFetchWord 32 w))

/-- R20, R21, R127: in a read phase an offered command has no effect: the block ticks as if nothing were offered, and the
host goes on offering the same word for the same purpose. -/
def Obligations.CommandHeldWhileReading : Prop :=
  ∀ (i : Instr) (s : State), s.eng.phase.ready = false →
    exec i s = .next (s.withEngine (s.eng.advance s.pins.dout)) ∧
    (s.pins.rst = false → s.pins.cmdValid = true → ∀ t, step s = .next t →
      t.eng = s.eng.advance s.pins.dout ∧ t.pins.cmdValid = true ∧ t.pins.cmdData = s.pins.cmdData ∧
      t.host.offering = s.host.offering)

/-- R86: no command stops, whatever the state: it changes the engine alone, and where the phase accepts commands its response
is shown in the next tick, except that a POLL in IDLE with `dout_s` low starts a read. -/
def Obligations.EveryCommandAnswersOrReads : Prop :=
  ∀ (i : Instr) (s : State), ∃ e, exec i s = .next (s.withEngine e) ∧
    (s.eng.phase.ready = true →
      e.rspValid = true ∨
      (i.mnemonic = .poll ∧ s.eng.phase = .idle ∧ s.pins.dout = false ∧ e.phase = .rdHi ∧ e.rspValid = false))

/-- R134, R173: the block's tick changes the engine alone: neither the host, nor the chip, nor the ports, nor the draws. -/
def Obligations.BlockTickTouchesEngineOnly : Prop :=
  ∀ s : State, ∃ e, engineTick s = .next (s.withEngine e)

/-! ## Reset -/

/-- R30: the engine's fields after reset. -/
def Obligations.ResetValues : Prop :=
  State.reset.eng =
    { phase := .unconf, cfgNch := .one, cfgSel := 0, cfgDly := 0, pending := 0, lastCh := .ch2, acc := 0, bitIdx := 0,
      pulseIdx := 0, wait := 0, sck := false, rspValid := false, rspStatus := 0, rspData := 0 }

/-- R181: a tick with `rst` high resets every engine field, whatever the phase and the command port show, in the block's tick
and in a step; so no response is made, `sck` is low and the phase is UNCONF from the next tick. -/
def Obligations.ResetWins : Prop :=
  ∀ s : State, s.pins.rst = true →
    engineTick s = .next (s.withEngine Engine.reset) ∧ ∀ t, step s = .next t → t.eng = Engine.reset

/-- R20, R183: at a reset tick no command is accepted: an offer goes on being offered, and no response is owed afterwards. That
the host then gives up the responses it was owed is the model's choice (log 8). -/
def Obligations.ResetKeepsOfferDropsOwed : Prop :=
  ∀ s t : State, s.pins.rst = true → step s = .next t →
    t.host.owed = [] ∧
    (s.pins.cmdValid = true → t.pins.cmdValid = true ∧ t.pins.cmdData = s.pins.cmdData ∧
      t.host.offering = s.host.offering)

/-! ## CONFIGURE, IS_READY, READ_STATUS -/

/-- R77, R78: CONFIGURE in each phase that accepts commands: in UNCONF with SEL ≠ 0 the whole next state; in UNCONF with
SEL = 0, in IDLE and in PDOWN the rejection, with no state change. -/
def Obligations.ConfigureEffect : Prop :=
  ∀ (n : Byte) (h : BitVec 2) (sel : SelCode) (d l : Byte) (s : State),
    (s.eng.phase = .unconf → sel ≠ 0 → exec (.configure n h sel d l) s = .next { s with eng := { s.eng with
      cfgNch := if n = 2 then .two else .one
      cfgSel := sel
      cfgDly := d
      lastCh := .ch2
      pending := if n = 2 then 2 else sel
      phase := .idle
      rspValid := true
      rspStatus := 0b000
      rspData := 0 } }) ∧
    (s.eng.phase = .idle ∨ s.eng.phase = .pdown ∨ (s.eng.phase = .unconf ∧ sel = 0) →
      exec (.configure n h sel d l) s =
        .next { s with eng := { s.eng with rspValid := true, rspStatus := 0b100, rspData := 0 } })

/-- R81, R82: IS_READY answers OK with bit 0 saying whether the phase is IDLE and `dout_s` is low; nothing else changes. -/
def Obligations.IsReadyReports : Prop :=
  ∀ (x : BitVec 28) (s : State), s.eng.phase.ready = true →
    exec (.isReady x) s = .next { s with eng := { s.eng with
      rspValid := true
      rspStatus := 0b000
      rspData := if s.eng.phase = .idle ∧ s.pins.dout = false then 1 else 0 } }

/-- R82: IS_READY answers 1 exactly where a POLL accepted at the same tick would read. -/
def Obligations.IsReadyPredictsRead : Prop :=
  ∀ (x y : BitVec 28) (s a b : State), s.eng.phase.ready = true →
    exec (.isReady x) s = .next a → exec (.poll y) s = .next b →
    (a.eng.rspData = 1 ↔ b.eng.phase = .rdHi)

/-- R83: READ_STATUS answers OK with the STATUS word; nothing else changes. -/
def Obligations.ReadStatusAnswers : Prop :=
  ∀ (x : BitVec 28) (s : State), s.eng.phase.ready = true →
    exec (.readStatus x) s = .next { s with eng := { s.eng with
      rspValid := true, rspStatus := 0b000, rspData := s.eng.statusWord s.pins.dout } }

/-- R32, R31: every field of the STATUS word; the reserved bits read 0. -/
def Obligations.StatusWordLayout : Prop :=
  ∀ (b : Bool) (e : Engine),
    ((e.statusWord b).getLsbD 0 = (decide (e.phase = .idle) && !b)) ∧
    ((e.statusWord b).getLsbD 1 = decide (e.phase ≠ .unconf)) ∧
    ((e.statusWord b).getLsbD 2 = decide (e.phase = .pdown)) ∧
    ((e.statusWord b).getLsbD 3 = decide (e.cfgNch = .two)) ∧
    ((e.statusWord b).extractLsb' 4 2 = e.cfgSel) ∧
    ((e.statusWord b).extractLsb' 6 2 = e.pending) ∧
    ((e.statusWord b).getLsbD 8 = decide (e.lastCh = .ch2)) ∧
    ((e.statusWord b).getLsbD 9 = e.sck) ∧
    ((e.statusWord b).getLsbD 10 = b) ∧
    ((e.statusWord b).extractLsb' 11 5 = 0) ∧
    ((e.statusWord b).extractLsb' 16 8 = e.cfgDly) ∧
    ((e.statusWord b).extractLsb' 24 8 = 0)

/-! ## POLL at its acceptance tick -/

/-- R107, R88: POLL in IDLE with `dout_s` low starts a read: the whole next state, and no response. -/
def Obligations.PollStartsRead : Prop :=
  ∀ (x : BitVec 28) (s : State), s.eng.phase = .idle → s.pins.dout = false →
    exec (.poll x) s = .next { s with eng := { s.eng with
      acc := 0, bitIdx := 0, pulseIdx := 0, wait := s.eng.cfgDly, sck := true, phase := .rdHi, rspValid := false } }

/-- R89, R88: POLL where it does not read: in UNCONF REJECTED, in PDOWN NO_DATA whatever `dout_s` is, in IDLE with `dout_s`
high NO_DATA; nothing but the response registers changes. -/
def Obligations.PollWithoutRead : Prop :=
  ∀ (x : BitVec 28) (s : State),
    (s.eng.phase = .unconf → exec (.poll x) s =
      .next { s with eng := { s.eng with rspValid := true, rspStatus := 0b100, rspData := 0 } }) ∧
    (s.eng.phase = .pdown → exec (.poll x) s =
      .next { s with eng := { s.eng with rspValid := true, rspStatus := 0b011, rspData := 0 } }) ∧
    (s.eng.phase = .idle → s.pins.dout = true → exec (.poll x) s =
      .next { s with eng := { s.eng with rspValid := true, rspStatus := 0b011, rspData := 0 } })

/-- R61: the three reserved rows, in every phase that accepts commands: REJECTED, data 0, no state change. -/
def Obligations.ReservedOpcodesRejected : Prop :=
  ∀ (x : BitVec 28) (op : BitVec 4) (s : State), s.eng.phase.ready = true →
    exec (.reservedZero x) s = .next { s with eng := { s.eng with rspValid := true, rspStatus := 0b100, rspData := 0 } } ∧
    exec (.reservedSeven x) s = .next { s with eng := { s.eng with rspValid := true, rspStatus := 0b100, rspData := 0 } } ∧
    exec (.reservedHigh op x) s = .next { s with eng := { s.eng with rspValid := true, rspStatus := 0b100, rspData := 0 } }

/-! ## Power control -/

/-- R123, R126, R125: POWER_DOWN in each phase that accepts commands: the whole next state. -/
def Obligations.PowerDownEffect : Prop :=
  ∀ (x : BitVec 28) (s : State),
    (s.eng.phase = .idle → exec (.powerDown x) s = .next { s with eng := { s.eng with
      sck := true, phase := .pdown, rspValid := true, rspStatus := 0b000, rspData := 0 } }) ∧
    (s.eng.phase = .pdown → exec (.powerDown x) s = .next { s with eng := { s.eng with
      rspValid := true, rspStatus := 0b000, rspData := 0 } }) ∧
    (s.eng.phase = .unconf → exec (.powerDown x) s = .next { s with eng := { s.eng with
      rspValid := true, rspStatus := 0b100, rspData := 0 } })

/-- R124, R126, R125: POWER_UP in each phase that accepts commands: the whole next state. -/
def Obligations.PowerUpEffect : Prop :=
  ∀ (x : BitVec 28) (s : State),
    (s.eng.phase = .pdown → exec (.powerUp x) s = .next { s with eng := { s.eng with
      sck := false, phase := .idle, rspValid := true, rspStatus := 0b000, rspData := 0 } }) ∧
    (s.eng.phase = .idle → exec (.powerUp x) s = .next { s with eng := { s.eng with
      rspValid := true, rspStatus := 0b000, rspData := 0 } }) ∧
    (s.eng.phase = .unconf → exec (.powerUp x) s = .next { s with eng := { s.eng with
      rspValid := true, rspStatus := 0b100, rspData := 0 } })

/-- R130: POWER_DOWN then POWER_UP from IDLE with `sck` low ends in IDLE with `sck` low, every field but the response
registers as before, and `sck` is high in between. -/
def Obligations.PowerRoundTrip : Prop :=
  ∀ (x y : BitVec 28) (s : State), s.eng.phase = .idle → s.eng.sck = false →
    ∃ a b, exec (.powerDown x) s = .next a ∧ a.eng.sck = true ∧ exec (.powerUp y) a = .next b ∧
      b = { s with eng := { s.eng with rspValid := true, rspStatus := 0b000, rspData := 0 } }

/-! ## The wire sequencer, tick by tick -/

/-- R108, R90: a tick of RD_HI, whatever the command port shows: count down, or sample `dout_s` and lower `sck`. -/
def Obligations.DataPulseHighTick : Prop :=
  ∀ s : State, s.pins.rst = false → s.eng.phase = .rdHi →
    engineTick s = .next { s with eng :=
      if 0 < s.eng.wait.toNat then { s.eng with wait := s.eng.wait - 1, rspValid := false }
      else { s.eng with
        acc := s.eng.acc.extractLsb' 0 23 ++ BitVec.ofBool s.pins.dout
        sck := false
        wait := s.eng.cfgDly
        phase := .rdLo
        rspValid := false } }

/-- R109: a tick of RD_LO: count down, or begin the next data pulse, or after the 24th the first selector pulse. -/
def Obligations.DataPulseLowTick : Prop :=
  ∀ s : State, s.pins.rst = false → s.eng.phase = .rdLo →
    engineTick s = .next { s with eng :=
      if 0 < s.eng.wait.toNat then { s.eng with wait := s.eng.wait - 1, rspValid := false }
      else if s.eng.bitIdx.val < 23 then { s.eng with
        bitIdx := s.eng.bitIdx + 1, sck := true, wait := s.eng.cfgDly, phase := .rdHi, rspValid := false }
      else { s.eng with
        pulseIdx := 1, sck := true, wait := s.eng.cfgDly, phase := .trHi, rspValid := false } }

/-- R110, R111: the ticks of a selector pulse; `dout_s` is not sampled, and after pulse `pending` comes COMMIT. -/
def Obligations.SelectorPulseTicks : Prop :=
  ∀ s : State, s.pins.rst = false →
    (s.eng.phase = .trHi → engineTick s = .next { s with eng :=
      if 0 < s.eng.wait.toNat then { s.eng with wait := s.eng.wait - 1, rspValid := false }
      else { s.eng with sck := false, wait := s.eng.cfgDly, phase := .trLo, rspValid := false } }) ∧
    (s.eng.phase = .trLo → engineTick s = .next { s with eng :=
      if 0 < s.eng.wait.toNat then { s.eng with wait := s.eng.wait - 1, rspValid := false }
      else if s.eng.pulseIdx.toNat < s.eng.pending.toNat then { s.eng with
        pulseIdx := s.eng.pulseIdx + 1, sck := true, wait := s.eng.cfgDly, phase := .trHi, rspValid := false }
      else { s.eng with phase := .commit, rspValid := false } })

/-- R112: in UNCONF, IDLE and PDOWN a tick with no command changes nothing but the strobe. -/
def Obligations.WaitingTickOnlyDropsStrobe : Prop :=
  ∀ s : State, s.pins.rst = false → s.pins.cmdValid = false → s.eng.phase.ready = true →
    engineTick s = .next { s with eng := { s.eng with rspValid := false } }

/-- R114, R97, R93, R62: the COMMIT tick: attribution, the advance of the two fields, and the response. -/
def Obligations.CommitTick : Prop :=
  ∀ s : State, s.pins.rst = false → s.eng.phase = .commit →
    (s.eng.cfgNch = .one → engineTick s = .next { s with eng := { s.eng with
      lastCh := .ch1
      rspValid := true, rspStatus := 0b001, rspData := s.eng.acc.signExtend 32
      bitIdx := 0, pulseIdx := 0, phase := .idle } }) ∧
    (s.eng.cfgNch = .two → s.eng.lastCh = .ch2 → engineTick s = .next { s with eng := { s.eng with
      lastCh := .ch1, pending := s.eng.cfgSel
      rspValid := true, rspStatus := 0b001, rspData := s.eng.acc.signExtend 32
      bitIdx := 0, pulseIdx := 0, phase := .idle } }) ∧
    (s.eng.cfgNch = .two → s.eng.lastCh = .ch1 → engineTick s = .next { s with eng := { s.eng with
      lastCh := .ch2, pending := 2
      rspValid := true, rspStatus := 0b010, rspData := s.eng.acc.signExtend 32
      bitIdx := 0, pulseIdx := 0, phase := .idle } })

/-! ## A whole read -/

/-- R120, R87, R116: a reading POLL accepted at the first of these ticks, with no reset in them: after `2P(d+1) + 2` ticks
the tick rules have left the state that the transaction rule gives for the word of the 24 sampled bits, with `wait`,
`bit_idx`, `pulse_idx` and `sck` zero and `acc` the word, whatever else the ports showed. INV2 is R33's. -/
def Obligations.ReadAgreesWithTransaction : Prop :=
  ∀ (s : State) (x : BitVec 28) (p : Pins) (ps : List Pins), s.eng.Inv2 → s.eng.phase = .idle →
    p.rst = false → p.cmdValid = true → decode p.cmdData = .poll x → p.dout = false →
    (∀ q ∈ ps, q.rst = false) → (p :: ps).length = responseTick s.eng.pending s.eng.cfgDly →
    ∃ t, blockRun (p :: ps) s = .next t ∧
      transaction (.poll x) (deserialize 0 (frameBits s.eng.cfgDly (p :: ps))) (s.drive p) =
        .next ((s.drive p).withEngine t.eng) ∧
      t.eng.wait = 0 ∧ t.eng.bitIdx = 0 ∧ t.eng.pulseIdx = 0 ∧ t.eng.sck = false ∧
      t.eng.acc = deserialize 0 (frameBits s.eng.cfgDly (p :: ps))

/-- R115, R117: the level of the `sck` pin at every tick of a read, up to the tick of the response. -/
def Obligations.ReadWaveform : Prop :=
  ∀ (s : State) (x : BitVec 28) (p : Pins) (ps : List Pins), s.eng.Inv2 → s.eng.phase = .idle →
    p.rst = false → p.cmdValid = true → decode p.cmdData = .poll x → p.dout = false →
    (∀ q ∈ ps, q.rst = false) → (p :: ps).length ≤ responseTick s.eng.pending s.eng.cfgDly →
    ∃ t, blockRun (p :: ps) s = .next t ∧ t.eng.sck = sckAt s.eng.pending s.eng.cfgDly (p :: ps).length

/-- R118: the read is in COMMIT at exactly one tick, `2P(d+1) + 1` after acceptance, its response is visible at the next
tick and at none before, and at that tick the block accepts a command again. -/
def Obligations.ReadResponseTiming : Prop :=
  ∀ (s : State) (x : BitVec 28) (p : Pins) (ps : List Pins), s.eng.Inv2 → s.eng.phase = .idle →
    p.rst = false → p.cmdValid = true → decode p.cmdData = .poll x → p.dout = false →
    (∀ q ∈ ps, q.rst = false) → (p :: ps).length ≤ responseTick s.eng.pending s.eng.cfgDly →
    ∃ t, blockRun (p :: ps) s = .next t ∧
      (t.eng.phase = .commit ↔ (p :: ps).length = commitTick s.eng.pending s.eng.cfgDly) ∧
      (t.eng.rspValid = true ↔ (p :: ps).length = responseTick s.eng.pending s.eng.cfgDly) ∧
      (t.eng.cmdReady = true ↔ (p :: ps).length = responseTick s.eng.pending s.eng.cfgDly)

/-- R115, R69: the pulses of that waveform: pulse `j` is high from its rise to its fall and low from its fall to the next
rise, each for `d + 1` ticks; there are `24 + N` of them, and after the last `sck` stays low. -/
def Obligations.PulseTimes : Prop :=
  ∀ (n : SelCode) (d : Byte) (j k : Nat),
    (fallTick d j = riseTick d j + (d.toNat + 1) ∧ riseTick d (j + 1) = fallTick d j + (d.toNat + 1)) ∧
    (j < 24 + n.toNat → riseTick d j ≤ k → k < fallTick d j → sckAt n d k = true) ∧
    (j < 24 + n.toNat → fallTick d j ≤ k → k < riseTick d (j + 1) → sckAt n d k = false) ∧
    (riseTick d (24 + n.toNat) ≤ k → sckAt n d k = false)

/-- R90, R47: after a frame's 24 bits the register holds them MSB first, the first bit at `w[23]`, whatever it held. -/
def Obligations.DeserializerMsbFirst : Prop :=
  ∀ (a : Sample) (bits : List Bool) (k : Nat), bits.length = 24 → k < 24 →
    (deserialize a bits).getLsbD (23 - k) = bits.getD k false

/-- R92, R91, R93: the source's integer recurrence and the shift register agree on every 24-bit frame, and the delivered word
is that integer. -/
def Obligations.AccumulatorFormsAgree : Prop :=
  ∀ bits : List Bool, bits.length = 24 →
    accumulate bits = (deserialize 0 bits).toInt ∧ (sampleWord (deserialize 0 bits)).toInt = accumulate bits

/-- R100: after a CONFIGURE with two channels the k-th read (from 0) is attributed to channel 1 for k even and 2 for k odd,
and it emits code 2 for k even and the configured selector for k odd, whatever the ports show, as long as there is no
reset. -/
def Obligations.AlternationLaw : Prop :=
  ∀ (s : State) (ps : List Pins) (k : Nat), s.eng.Inv4 → s.eng.phase ≠ .unconf → s.eng.cfgNch = .two →
    s.eng.lastCh = .ch2 → (∀ q ∈ ps, q.rst = false) → k < (readsOf ps s).length →
    (readsOf ps s)[k]? = some (if k % 2 = 0 then (Channel.ch1, 2) else (Channel.ch2, s.eng.cfgSel))

/-- R99: with one channel every read is attributed to channel 1 and emits the configured selector. -/
def Obligations.SingleChannelLaw : Prop :=
  ∀ (s : State) (ps : List Pins), s.eng.Inv3 → s.eng.phase ≠ .unconf → s.eng.cfgNch = .one →
    (∀ q ∈ ps, q.rst = false) → ∀ r ∈ readsOf ps s, r = (Channel.ch1, s.eng.cfgSel)

/-! ## Invariants -/

/-- R33: every step keeps INV1 to INV7, with the counters at rest between reads (R30, R120). -/
def Obligations.EngineInvariantsKept : Prop :=
  ∀ s t : State, s.eng.StrongInv → step s = .next t → t.eng.StrongInv

/-- R33, R22, R35, R132: the invariants hold at reset. -/
def Obligations.InvariantsHoldAtReset : Prop :=
  State.reset.eng.StrongInv ∧ State.reset.ResponsesOwed ∧ State.reset.StrobeDown ∧ State.reset.ChipInStep ∧
    State.reset.host.wf ∧ State.reset.quiescent

/-- R22, R53: one response per accepted command: an accepted command is owed its response until the tick it is shown, and
then no longer; at most one is owed. -/
def Obligations.OneResponsePerCommandKept : Prop :=
  ∀ s t : State, s.ResponsesOwed → s.StrobeDown → step s = .next t → t.ResponsesOwed ∧ t.StrobeDown

/-- R28: without a reset the configuration changes only by an accepted CONFIGURE in UNCONF, which leaves UNCONF. -/
def Obligations.ConfigurationWrittenOnlyByConfigure : Prop :=
  ∀ s t : State, step s = .next t → s.pins.rst = false →
    (t.eng.cfgNch = s.eng.cfgNch ∧ t.eng.cfgSel = s.eng.cfgSel ∧ t.eng.cfgDly = s.eng.cfgDly) ∨
    (s.eng.phase = .unconf ∧ s.accepted = true ∧ (decode s.pins.cmdData).mnemonic = .configure ∧ t.eng.phase = .idle)

/-- R29, R101: without a reset `pending` and `last_ch` change only by an accepted CONFIGURE in UNCONF and at COMMIT. -/
def Obligations.SequencerFieldsWrittenOnlyByCommit : Prop :=
  ∀ s t : State, step s = .next t → s.pins.rst = false →
    (t.eng.pending = s.eng.pending ∧ t.eng.lastCh = s.eng.lastCh) ∨ s.eng.phase = .commit ∨
    (s.eng.phase = .unconf ∧ s.accepted = true ∧ (decode s.pins.cmdData).mnemonic = .configure)

/-! ## The chip under its contract -/

/-- R35, R115, R174, R106: every step keeps the chip in step with the block: the edges it has counted are the pulses made, the
selector it has latched, where it has, is the one the last read emitted, and each level of a read has stood for the ticks
`wait` no longer counts. Rests on the latch the spec assumes of the chip (log 12). -/
def Obligations.ChipInStepKept : Prop :=
  ∀ s t : State, s.ChipInStep → step s = .next t → t.ChipInStep

/-- R71, R96, R174: at the COMMIT tick of two-channel mode under the contract, a sample attributed to channel 1 was converted
under the configured selector and one attributed to channel 2 under code 2, where the chip had latched its selector at all;
and the frame's pulses latch the pending selector. Rests on the latch the spec assumes of the chip (log 12). -/
def Obligations.AttributionMatchesConversion : Prop :=
  ∀ s t : State, s.ChipInStep → s.pins.rst = false → s.eng.phase = .commit → s.eng.cfgNch = .two →
    s.chip.inContract = true → step s = .next t →
    (s.chip.latched = true → t.chip.sampleSel = if s.eng.attribution = .ch1 then s.eng.cfgSel else 2) ∧
    t.chip.sel = s.eng.pending ∧ t.chip.latched = true

/-- R36, R192, R193, R174, U4, U5, U7: which ticks change the chip's selector and what it then is. A reset, a POWER_UP that
ends PDOWN and a read completed outside the contract leave it a free value; a read completed under the contract latches the
code its pulses emitted and delivers a sample converted under the selector held before; no other tick touches it. The
free values and the latch are log 12. -/
def Obligations.ChipSelectorEvents : Prop :=
  ∀ s t : State, s.ChipInStep → step s = .next t →
    (s.pins.rst = true ∨ (s.eng.phase = .pdown ∧ t.eng.phase ≠ .pdown) ∨
        (s.eng.phase = .commit ∧ s.chip.inContract = false) →
      t.chip.latched = false ∧ t.chip.sel = selectorCode (Config.chipSelector t.tick)) ∧
    (s.pins.rst = false → s.eng.phase = .commit → s.chip.inContract = true →
      t.chip.latched = true ∧ t.chip.sel = s.eng.pending ∧ t.chip.sampleSel = s.chip.sel) ∧
    (s.pins.rst = false → s.eng.phase = .commit → s.chip.inContract = false →
      t.chip.sampleSel = selectorCode (Config.sampleSelector t.tick)) ∧
    (s.pins.rst = false → s.eng.phase ≠ .commit → (s.eng.phase = .pdown → t.eng.phase = .pdown) →
      t.chip.latched = s.chip.latched ∧ t.chip.sel = s.chip.sel) ∧
    (s.pins.rst = true ∨ s.eng.phase ≠ .commit → t.chip.sampleSel = s.chip.sampleSel)

/-- R175, R183, R190, R191, R195: which ticks take the chip out of its contract and which bring it back. A reset in a read
phase does the first; the end of PDOWN decides by its length; a level of a read that ends is held against R191, and so is a
low level that ends at a rise out of IDLE; every other tick leaves it. Which of these the model counts is log 14. -/
def Obligations.ChipContractEvents : Prop :=
  ∀ s t : State, s.ChipInStep → step s = .next t →
    let shown : Rat := ((s.chip.levelTicks + 1 : Nat) : Rat) * Config.tTick
    let level : Rat := ((s.eng.cfgDly.toNat + 1 : Nat) : Rat) * Config.tTick
    (s.pins.rst = true → s.eng.phase.ready = false → t.chip.inContract = false) ∧
    (s.eng.phase = .pdown → t.eng.phase ≠ .pdown → (t.chip.inContract = true ↔ Config.tPd ≤ shown)) ∧
    (s.pins.rst = false → s.eng.phase = .rdHi ∨ s.eng.phase = .trHi → s.eng.wait = 0 →
      (t.chip.inContract = true ↔ s.chip.inContract = true ∧ Config.tHiMin ≤ level ∧ level < Config.tHiMax ∧
        (s.eng.phase = .rdHi → Config.tDv + (Config.syncStages : Rat) * Config.tTick ≤ level))) ∧
    (s.pins.rst = false → s.eng.phase = .rdLo ∨ s.eng.phase = .trLo → t.eng.sck = true →
      (t.chip.inContract = true ↔ s.chip.inContract = true ∧ Config.tLoMin ≤ level)) ∧
    (s.pins.rst = false → s.eng.phase = .idle → t.eng.sck = true →
      (t.chip.inContract = true ↔ s.chip.inContract = true ∧ Config.tLoMin ≤ shown)) ∧
    (s.eng.phase.ready = true ∨ s.pins.rst = false → t.eng.sck = s.eng.sck → t.chip.inContract = s.chip.inContract) ∧
    t.chip.levelTicks = if t.eng.sck = s.eng.sck then s.chip.levelTicks + 1 else 0

/-! ## The host and its Channel Store -/

/-- R132: every step keeps the store's shape: one ring of CAP slots per channel, no fill above CAP, CAP at least 1. -/
def Obligations.StoreShapeKept : Prop :=
  ∀ s t : State, s.host.wf → step s = .next t → t.host.wf

/-- R135, R137: pushing samples in turn leaves the newest CAP of them, newest first, before the older contents, and a fill
that counts them up to CAP. -/
def Obligations.RingKeepsNewest : Prop :=
  ∀ (cap : Nat) (r : Ring) (vs : List Int), r.wf cap →
    vs.foldl (fun q v => q.push cap v) r =
      { slots := (vs.reverse ++ r.slots).take cap, fill := min (r.fill + vs.length) cap }

/-- R136, R135, R132: POLL_AND_INGEST by the response: NO_DATA changes nothing, CH1 and CH2 push the sample into that
channel's ring and leave the other ring and the calibration as they are, REJECTED is refused. -/
def Obligations.IngestFollowsStatus : Prop :=
  ∀ (h : HostAgent) (st : Store) (d : Word) (ch : Channel) (r : Ring),
    h.store = some st → st.ring? ch.toNat = some r →
    h.ingest 0b011 d = .next (h, none) ∧
    (∃ st', st.Pushed ch r d.toInt st' ∧ h.ingest ch.status d = .next ({ h with store := some st' }, some ch)) ∧
    h.ingest 0b100 d = .refused .pollRejected

/-- R138, R139: AVERAGE sums the newest min(n, CAP) slots of an existing channel, whatever its fill, and divides by that
count. -/
def Obligations.AverageOfNewestSlots : Prop :=
  ∀ (st : Store) (ch n : Nat) (r : Ring), st.ring? ch = some r → 1 ≤ min n st.cap →
    st.average ch n = .ok (((r.slots.take (min n st.cap)).sum : Int) / ((min n st.cap : Nat) : Rat))

/-- R140: asking for more samples than the capacity gives the average of the capacity. -/
def Obligations.AverageSaturates : Prop :=
  ∀ (st : Store) (ch n : Nat), st.cap < n → st.average ch n = st.average ch st.cap

/-- R141, R143, R146: what is refused: a count of 0, a channel outside 1..NCH, a scale of 0. -/
def Obligations.StoreRefusals : Prop :=
  ∀ (st : Store) (ch n : Nat), st.wf →
    (ch = 0 ∨ st.nch.toNat < ch → st.average ch n = .error (.noSuchChannel ch) ∧
      ∀ h : HostAgent, h.store = some st → h.tare ch n = .refused (.noSuchChannel ch)) ∧
    (1 ≤ ch → ch ≤ st.nch.toNat → st.average ch 0 = .error .averageOfNone ∧
      ∀ h : HostAgent, h.store = some st → h.tare ch 0 = .refused .averageOfNone) ∧
    (1 ≤ ch → ch ≤ st.nch.toNat → 1 ≤ n → (st.setScale ch 0).calibrated ch n = .error (.scaleZero ch))

/-- R142, R143, R148: the offset round trip, and calibrated units equal to the average for scale 1 and offset 0. -/
def Obligations.CalibrationLaws : Prop :=
  ∀ (st : Store) (ch n : Nat) (a : Rat) (o : Int) (f : Rat), st.average ch n = .ok a → (ch = 1 ∨ ch = 2) → f ≠ 0 →
    (st.setOffset ch o).tareCorrected ch n = .ok (a - o) ∧
    ((st.setOffset ch o).setScale ch f).calibrated ch n = .ok ((a - o) / f) ∧
    ((st.setOffset ch 0).setScale ch 1).calibrated ch n = .ok a

/-- R147: the setters write the one slot of channel 1 or 2, whatever NCH is, and do nothing for any other channel. -/
def Obligations.SettersWriteOneSlot : Prop :=
  ∀ (st : Store) (ch : Nat) (f : Rat) (o : Int),
    st.setScale 1 f = { st with cal1 := { st.cal1 with scale := f } } ∧
    st.setScale 2 f = { st with cal2 := { st.cal2 with scale := f } } ∧
    st.setOffset 1 o = { st with cal1 := { st.cal1 with offset := o } } ∧
    st.setOffset 2 o = { st with cal2 := { st.cal2 with offset := o } } ∧
    (ch ≠ 1 → ch ≠ 2 → st.setScale ch f = st ∧ st.setOffset ch o = st)

/-- R144, R135, R151: TARE on an existing channel with a count begins with no ingest made; it polls while fewer than `n * NCH` ingests have succeeded, counts a success and not a NO_DATA, and ends by
storing the average truncated toward zero as the channel's offset. -/
def Obligations.TareLoopAndEnd : Prop :=
  ∀ (h : HostAgent) (st : Store) (ch n got : Nat) (d : Word), h.store = some st →
    (∀ r, st.ring? ch = some r → 1 ≤ n →
      h.tare ch n = .next ({ h with offering := .tare ch n 0 }, some 0x20000000)) ∧
    (got < n * st.nch.toNat →
      h.tareLoop ch n got = .next ({ h with offering := .tare ch n got }, some 0x20000000)) ∧
    (h.answer 0b011 d (.tare ch n got) = .next { h with program := .tareLoop ch n got :: h.program }) ∧
    (∀ (c : Channel) (r : Ring), st.ring? c.toNat = some r →
      ∃ st', st.Pushed c r d.toInt st' ∧ h.answer c.status d (.tare ch n got) =
        .next { h with store := some st', program := .tareLoop ch n (got + 1) :: h.program }) ∧
    (∀ a : Rat, n * st.nch.toNat ≤ got → st.average ch n = .ok a → h.tareLoop ch n got =
      .next ({ h with
        store := some (st.setOffset ch (a.num.tdiv a.den))
        returns := h.returns ++ [.done] }, none))

/-- R151: truncation is toward zero: the integer is within 1 of the rational and no farther from 0. -/
def Obligations.TruncationTowardZero : Prop :=
  ∀ r : Rat, |(truncRat r : Rat)| ≤ |r| ∧ |r - (truncRat r : Rat)| < 1 ∧ (0 ≤ r → 0 ≤ truncRat r) ∧ (r ≤ 0 → truncRat r ≤ 0)

/-- R136, R149, R176: the command word a call of the host offers, and nothing else of the host changed but what the word's
response is for: POLL for poll-and-ingest, POWER_DOWN and POWER_UP for the power calls, any 32-bit word for a raw command. -/
def Obligations.HostCallsOfferTheirWord : Prop :=
  ∀ (h : HostAgent) (w : Word),
    h.begin .pollAndIngest = .next ({ h with offering := .ingest }, some 0x20000000) ∧
    h.begin .powerDown = .next ({ h with offering := .deliver }, some 0x30000000) ∧
    h.begin .powerUp = .next ({ h with offering := .deliver }, some 0x40000000) ∧
    h.begin (.command w) = .next ({ h with offering := .deliver }, some w)

/-- R73, R131, R133, R153: construct issues CONFIGURE with the cells, truncated to the field (log 21), the code of the gain and
the bit delay; on OK the store starts with zero buffers, offsets 0 and scales 1, and on REJECTED it stays as it was (log 9).
With every operand left out it is 0x10110000 with capacity 20 (L1.3); capacity 0 and a gain S does not map are refused. -/
def Obligations.ConstructIssuesConfigure : Prop :=
  ∀ (h : HostAgent) (cap cells : Nat) (dly : Byte) (d : Word), 1 ≤ cap →
    (∀ gain sel, (gain = 128 ∧ sel = 1) ∨ (gain = 64 ∧ sel = 3) ∨ (gain = 32 ∧ sel = 2) →
      ∃ w k, h.construct { cap := some cap, cells := some cells, gain := some gain, dly := some dly } =
          .next ({ h with offering := k }, some w) ∧
        decode w = .configure (BitVec.ofNat 8 cells) 0 sel dly 0 ∧
        h.answer 0b000 d k = .next { h with
          store := some {
            cap := cap
            nch := if cells % 256 = 2 then .two else .one
            rings := List.replicate (if cells % 256 = 2 then 2 else 1) { slots := List.replicate cap 0, fill := 0 }
            cal1 := { offset := 0, scale := 1 }
            cal2 := { offset := 0, scale := 1 } }
          returns := h.returns ++ [.response 0b000 d] } ∧
        h.answer 0b100 d k = .next { h with returns := h.returns ++ [.response 0b100 d] }) ∧
    (∀ gain, gain ≠ 128 → gain ≠ 64 → gain ≠ 32 →
      h.construct { cap := some cap, cells := some cells, gain := some gain, dly := some dly } =
        .refused (.gainUnknown gain)) ∧
    (∀ g, h.construct { cap := some 0, cells := some cells, gain := g, dly := some dly } = .refused .capacityZero) ∧
    h.begin (.construct { cap := none, cells := none, gain := none, dly := none }) =
      h.begin (.construct { cap := some 20, cells := some 1, gain := some 128, dly := some 0 }) ∧
    lineCall "CONSTRUCT".toList = .ok (some (.construct { cap := none, cells := none, gain := none, dly := none }))

/-- R72: the assembler's range rule: a CONFIGURE in range encodes as R58 with every ignored bit 0, and it refuses `sel=0` and
any value out of range. -/
def Obligations.AssemblerConfigure : Prop :=
  ∀ nch sel dly : Nat,
    (nch ≤ 255 → 1 ≤ sel → sel ≤ 3 → dly ≤ 255 →
      ∃ w, asmConfigure nch sel dly = .ok w ∧ w.toNat = 2 ^ 28 + nch * 2 ^ 20 + sel * 2 ^ 16 + dly * 2 ^ 8) ∧
    (255 < nch ∨ sel = 0 ∨ 3 < sel ∨ 255 < dly → asmConfigure nch sel dly = .error .outOfRange)
end

