-- ==== Sys2Proof/Laws/State.lean ====
section
/-!
SUPPORT. One lemma per field per update, so that no later proof unfolds a record update.
-/
namespace Sys2Proof.Machine

/-! ## Engine updates -/

/-! ### `respond` -/

@[simp] theorem Engine.respond_phase (st : Status) (d : Word) (e : Engine) : (e.respond st d).phase = e.phase := rfl
@[simp] theorem Engine.respond_cfgNch (st : Status) (d : Word) (e : Engine) : (e.respond st d).cfgNch = e.cfgNch := rfl
@[simp] theorem Engine.respond_cfgSel (st : Status) (d : Word) (e : Engine) : (e.respond st d).cfgSel = e.cfgSel := rfl
@[simp] theorem Engine.respond_cfgDly (st : Status) (d : Word) (e : Engine) : (e.respond st d).cfgDly = e.cfgDly := rfl
@[simp] theorem Engine.respond_pending (st : Status) (d : Word) (e : Engine) : (e.respond st d).pending = e.pending := rfl
@[simp] theorem Engine.respond_lastCh (st : Status) (d : Word) (e : Engine) : (e.respond st d).lastCh = e.lastCh := rfl
@[simp] theorem Engine.respond_acc (st : Status) (d : Word) (e : Engine) : (e.respond st d).acc = e.acc := rfl
@[simp] theorem Engine.respond_bitIdx (st : Status) (d : Word) (e : Engine) : (e.respond st d).bitIdx = e.bitIdx := rfl
@[simp] theorem Engine.respond_pulseIdx (st : Status) (d : Word) (e : Engine) : (e.respond st d).pulseIdx = e.pulseIdx := rfl
@[simp] theorem Engine.respond_wait (st : Status) (d : Word) (e : Engine) : (e.respond st d).wait = e.wait := rfl
@[simp] theorem Engine.respond_sck (st : Status) (d : Word) (e : Engine) : (e.respond st d).sck = e.sck := rfl
@[simp] theorem Engine.respond_rspValid (st : Status) (d : Word) (e : Engine) : (e.respond st d).rspValid = true := rfl
@[simp] theorem Engine.respond_rspStatus (st : Status) (d : Word) (e : Engine) : (e.respond st d).rspStatus = st := rfl
@[simp] theorem Engine.respond_rspData (st : Status) (d : Word) (e : Engine) : (e.respond st d).rspData = d := rfl

/-! ### `quiet` -/

@[simp] theorem Engine.quiet_phase (e : Engine) : (e.quiet).phase = e.phase := rfl
@[simp] theorem Engine.quiet_cfgNch (e : Engine) : (e.quiet).cfgNch = e.cfgNch := rfl
@[simp] theorem Engine.quiet_cfgSel (e : Engine) : (e.quiet).cfgSel = e.cfgSel := rfl
@[simp] theorem Engine.quiet_cfgDly (e : Engine) : (e.quiet).cfgDly = e.cfgDly := rfl
@[simp] theorem Engine.quiet_pending (e : Engine) : (e.quiet).pending = e.pending := rfl
@[simp] theorem Engine.quiet_lastCh (e : Engine) : (e.quiet).lastCh = e.lastCh := rfl
@[simp] theorem Engine.quiet_acc (e : Engine) : (e.quiet).acc = e.acc := rfl
@[simp] theorem Engine.quiet_bitIdx (e : Engine) : (e.quiet).bitIdx = e.bitIdx := rfl
@[simp] theorem Engine.quiet_pulseIdx (e : Engine) : (e.quiet).pulseIdx = e.pulseIdx := rfl
@[simp] theorem Engine.quiet_wait (e : Engine) : (e.quiet).wait = e.wait := rfl
@[simp] theorem Engine.quiet_sck (e : Engine) : (e.quiet).sck = e.sck := rfl
@[simp] theorem Engine.quiet_rspValid (e : Engine) : (e.quiet).rspValid = false := rfl
@[simp] theorem Engine.quiet_rspStatus (e : Engine) : (e.quiet).rspStatus = e.rspStatus := rfl
@[simp] theorem Engine.quiet_rspData (e : Engine) : (e.quiet).rspData = e.rspData := rfl

/-! ### `reject` -/

@[simp] theorem Engine.reject_phase (e : Engine) : (e.reject).phase = e.phase := rfl
@[simp] theorem Engine.reject_cfgNch (e : Engine) : (e.reject).cfgNch = e.cfgNch := rfl
@[simp] theorem Engine.reject_cfgSel (e : Engine) : (e.reject).cfgSel = e.cfgSel := rfl
@[simp] theorem Engine.reject_cfgDly (e : Engine) : (e.reject).cfgDly = e.cfgDly := rfl
@[simp] theorem Engine.reject_pending (e : Engine) : (e.reject).pending = e.pending := rfl
@[simp] theorem Engine.reject_lastCh (e : Engine) : (e.reject).lastCh = e.lastCh := rfl
@[simp] theorem Engine.reject_acc (e : Engine) : (e.reject).acc = e.acc := rfl
@[simp] theorem Engine.reject_bitIdx (e : Engine) : (e.reject).bitIdx = e.bitIdx := rfl
@[simp] theorem Engine.reject_pulseIdx (e : Engine) : (e.reject).pulseIdx = e.pulseIdx := rfl
@[simp] theorem Engine.reject_wait (e : Engine) : (e.reject).wait = e.wait := rfl
@[simp] theorem Engine.reject_sck (e : Engine) : (e.reject).sck = e.sck := rfl
@[simp] theorem Engine.reject_rspValid (e : Engine) : (e.reject).rspValid = true := rfl
@[simp] theorem Engine.reject_rspStatus (e : Engine) : (e.reject).rspStatus = statusRejected := rfl
@[simp] theorem Engine.reject_rspData (e : Engine) : (e.reject).rspData = 0 := rfl

/-! ### `waitTick` -/

@[simp] theorem Engine.waitTick_phase (e : Engine) : (e.waitTick).phase = e.phase := rfl
@[simp] theorem Engine.waitTick_cfgNch (e : Engine) : (e.waitTick).cfgNch = e.cfgNch := rfl
@[simp] theorem Engine.waitTick_cfgSel (e : Engine) : (e.waitTick).cfgSel = e.cfgSel := rfl
@[simp] theorem Engine.waitTick_cfgDly (e : Engine) : (e.waitTick).cfgDly = e.cfgDly := rfl
@[simp] theorem Engine.waitTick_pending (e : Engine) : (e.waitTick).pending = e.pending := rfl
@[simp] theorem Engine.waitTick_lastCh (e : Engine) : (e.waitTick).lastCh = e.lastCh := rfl
@[simp] theorem Engine.waitTick_acc (e : Engine) : (e.waitTick).acc = e.acc := rfl
@[simp] theorem Engine.waitTick_bitIdx (e : Engine) : (e.waitTick).bitIdx = e.bitIdx := rfl
@[simp] theorem Engine.waitTick_pulseIdx (e : Engine) : (e.waitTick).pulseIdx = e.pulseIdx := rfl
@[simp] theorem Engine.waitTick_wait (e : Engine) : (e.waitTick).wait = e.wait - 1 := rfl
@[simp] theorem Engine.waitTick_sck (e : Engine) : (e.waitTick).sck = e.sck := rfl
@[simp] theorem Engine.waitTick_rspValid (e : Engine) : (e.waitTick).rspValid = false := rfl
@[simp] theorem Engine.waitTick_rspStatus (e : Engine) : (e.waitTick).rspStatus = e.rspStatus := rfl
@[simp] theorem Engine.waitTick_rspData (e : Engine) : (e.waitTick).rspData = e.rspData := rfl

/-! ### `level` -/

@[simp] theorem Engine.level_phase (ph : Phase) (b : Bool) (e : Engine) : (e.level ph b).phase = ph := rfl
@[simp] theorem Engine.level_cfgNch (ph : Phase) (b : Bool) (e : Engine) : (e.level ph b).cfgNch = e.cfgNch := rfl
@[simp] theorem Engine.level_cfgSel (ph : Phase) (b : Bool) (e : Engine) : (e.level ph b).cfgSel = e.cfgSel := rfl
@[simp] theorem Engine.level_cfgDly (ph : Phase) (b : Bool) (e : Engine) : (e.level ph b).cfgDly = e.cfgDly := rfl
@[simp] theorem Engine.level_pending (ph : Phase) (b : Bool) (e : Engine) : (e.level ph b).pending = e.pending := rfl
@[simp] theorem Engine.level_lastCh (ph : Phase) (b : Bool) (e : Engine) : (e.level ph b).lastCh = e.lastCh := rfl
@[simp] theorem Engine.level_acc (ph : Phase) (b : Bool) (e : Engine) : (e.level ph b).acc = e.acc := rfl
@[simp] theorem Engine.level_bitIdx (ph : Phase) (b : Bool) (e : Engine) : (e.level ph b).bitIdx = e.bitIdx := rfl
@[simp] theorem Engine.level_pulseIdx (ph : Phase) (b : Bool) (e : Engine) : (e.level ph b).pulseIdx = e.pulseIdx := rfl
@[simp] theorem Engine.level_wait (ph : Phase) (b : Bool) (e : Engine) : (e.level ph b).wait = e.cfgDly := rfl
@[simp] theorem Engine.level_sck (ph : Phase) (b : Bool) (e : Engine) : (e.level ph b).sck = b := rfl
@[simp] theorem Engine.level_rspValid (ph : Phase) (b : Bool) (e : Engine) : (e.level ph b).rspValid = false := rfl
@[simp] theorem Engine.level_rspStatus (ph : Phase) (b : Bool) (e : Engine) : (e.level ph b).rspStatus = e.rspStatus := rfl
@[simp] theorem Engine.level_rspData (ph : Phase) (b : Bool) (e : Engine) : (e.level ph b).rspData = e.rspData := rfl

/-! ### `commit` -/

@[simp] theorem Engine.commit_phase (e : Engine) : (e.commit).phase = e.phase := rfl
@[simp] theorem Engine.commit_cfgNch (e : Engine) : (e.commit).cfgNch = e.cfgNch := rfl
@[simp] theorem Engine.commit_cfgSel (e : Engine) : (e.commit).cfgSel = e.cfgSel := rfl
@[simp] theorem Engine.commit_cfgDly (e : Engine) : (e.commit).cfgDly = e.cfgDly := rfl
@[simp] theorem Engine.commit_pending (e : Engine) : (e.commit).pending = e.nextPending := rfl
@[simp] theorem Engine.commit_lastCh (e : Engine) : (e.commit).lastCh = e.attribution := rfl
@[simp] theorem Engine.commit_acc (e : Engine) : (e.commit).acc = e.acc := rfl
@[simp] theorem Engine.commit_bitIdx (e : Engine) : (e.commit).bitIdx = e.bitIdx := rfl
@[simp] theorem Engine.commit_pulseIdx (e : Engine) : (e.commit).pulseIdx = e.pulseIdx := rfl
@[simp] theorem Engine.commit_wait (e : Engine) : (e.commit).wait = e.wait := rfl
@[simp] theorem Engine.commit_sck (e : Engine) : (e.commit).sck = e.sck := rfl
@[simp] theorem Engine.commit_rspValid (e : Engine) : (e.commit).rspValid = e.rspValid := rfl
@[simp] theorem Engine.commit_rspStatus (e : Engine) : (e.commit).rspStatus = e.rspStatus := rfl
@[simp] theorem Engine.commit_rspData (e : Engine) : (e.commit).rspData = e.rspData := rfl

/-! ### `finish` -/

@[simp] theorem Engine.finish_phase (e : Engine) : (e.finish).phase = .idle := rfl
@[simp] theorem Engine.finish_cfgNch (e : Engine) : (e.finish).cfgNch = e.cfgNch := rfl
@[simp] theorem Engine.finish_cfgSel (e : Engine) : (e.finish).cfgSel = e.cfgSel := rfl
@[simp] theorem Engine.finish_cfgDly (e : Engine) : (e.finish).cfgDly = e.cfgDly := rfl
@[simp] theorem Engine.finish_pending (e : Engine) : (e.finish).pending = e.nextPending := rfl
@[simp] theorem Engine.finish_lastCh (e : Engine) : (e.finish).lastCh = e.attribution := rfl
@[simp] theorem Engine.finish_acc (e : Engine) : (e.finish).acc = e.acc := rfl
@[simp] theorem Engine.finish_bitIdx (e : Engine) : (e.finish).bitIdx = 0 := rfl
@[simp] theorem Engine.finish_pulseIdx (e : Engine) : (e.finish).pulseIdx = 0 := rfl
@[simp] theorem Engine.finish_wait (e : Engine) : (e.finish).wait = e.wait := rfl
@[simp] theorem Engine.finish_sck (e : Engine) : (e.finish).sck = e.sck := rfl
@[simp] theorem Engine.finish_rspValid (e : Engine) : (e.finish).rspValid = true := rfl
@[simp] theorem Engine.finish_rspStatus (e : Engine) : (e.finish).rspStatus = e.attribution.status := rfl
@[simp] theorem Engine.finish_rspData (e : Engine) : (e.finish).rspData = sampleWord e.acc := rfl

/-! ### `readStart` -/

@[simp] theorem Engine.readStart_phase (e : Engine) : (e.readStart).phase = .rdHi := rfl
@[simp] theorem Engine.readStart_cfgNch (e : Engine) : (e.readStart).cfgNch = e.cfgNch := rfl
@[simp] theorem Engine.readStart_cfgSel (e : Engine) : (e.readStart).cfgSel = e.cfgSel := rfl
@[simp] theorem Engine.readStart_cfgDly (e : Engine) : (e.readStart).cfgDly = e.cfgDly := rfl
@[simp] theorem Engine.readStart_pending (e : Engine) : (e.readStart).pending = e.pending := rfl
@[simp] theorem Engine.readStart_lastCh (e : Engine) : (e.readStart).lastCh = e.lastCh := rfl
@[simp] theorem Engine.readStart_acc (e : Engine) : (e.readStart).acc = 0x000000#24 := rfl
@[simp] theorem Engine.readStart_bitIdx (e : Engine) : (e.readStart).bitIdx = 0 := rfl
@[simp] theorem Engine.readStart_pulseIdx (e : Engine) : (e.readStart).pulseIdx = 0 := rfl
@[simp] theorem Engine.readStart_wait (e : Engine) : (e.readStart).wait = e.cfgDly := rfl
@[simp] theorem Engine.readStart_sck (e : Engine) : (e.readStart).sck = true := rfl
@[simp] theorem Engine.readStart_rspValid (e : Engine) : (e.readStart).rspValid = false := rfl
@[simp] theorem Engine.readStart_rspStatus (e : Engine) : (e.readStart).rspStatus = e.rspStatus := rfl
@[simp] theorem Engine.readStart_rspData (e : Engine) : (e.readStart).rspData = e.rspData := rfl

/-! ### `configured` -/

@[simp] theorem Engine.configured_phase (n : Byte) (sel : SelCode) (d : Byte) (e : Engine) : (e.configured n sel d).phase = .idle := rfl
@[simp] theorem Engine.configured_cfgNch (n : Byte) (sel : SelCode) (d : Byte) (e : Engine) : (e.configured n sel d).cfgNch = chanCount n := rfl
@[simp] theorem Engine.configured_cfgSel (n : Byte) (sel : SelCode) (d : Byte) (e : Engine) : (e.configured n sel d).cfgSel = sel := rfl
@[simp] theorem Engine.configured_cfgDly (n : Byte) (sel : SelCode) (d : Byte) (e : Engine) : (e.configured n sel d).cfgDly = d := rfl
@[simp] theorem Engine.configured_pending (n : Byte) (sel : SelCode) (d : Byte) (e : Engine) : (e.configured n sel d).pending = initialPending (chanCount n) sel := rfl
@[simp] theorem Engine.configured_lastCh (n : Byte) (sel : SelCode) (d : Byte) (e : Engine) : (e.configured n sel d).lastCh = .ch2 := rfl
@[simp] theorem Engine.configured_acc (n : Byte) (sel : SelCode) (d : Byte) (e : Engine) : (e.configured n sel d).acc = e.acc := rfl
@[simp] theorem Engine.configured_bitIdx (n : Byte) (sel : SelCode) (d : Byte) (e : Engine) : (e.configured n sel d).bitIdx = e.bitIdx := rfl
@[simp] theorem Engine.configured_pulseIdx (n : Byte) (sel : SelCode) (d : Byte) (e : Engine) : (e.configured n sel d).pulseIdx = e.pulseIdx := rfl
@[simp] theorem Engine.configured_wait (n : Byte) (sel : SelCode) (d : Byte) (e : Engine) : (e.configured n sel d).wait = e.wait := rfl
@[simp] theorem Engine.configured_sck (n : Byte) (sel : SelCode) (d : Byte) (e : Engine) : (e.configured n sel d).sck = e.sck := rfl
@[simp] theorem Engine.configured_rspValid (n : Byte) (sel : SelCode) (d : Byte) (e : Engine) : (e.configured n sel d).rspValid = true := rfl
@[simp] theorem Engine.configured_rspStatus (n : Byte) (sel : SelCode) (d : Byte) (e : Engine) : (e.configured n sel d).rspStatus = statusOk := rfl
@[simp] theorem Engine.configured_rspData (n : Byte) (sel : SelCode) (d : Byte) (e : Engine) : (e.configured n sel d).rspData = 0 := rfl

/-! ## State updates -/

/-! ### `State.withEngine` -/

@[simp] theorem State.withEngine_eng (s : State) (e : Engine) : (s.withEngine e).eng = e := rfl
@[simp] theorem State.withEngine_pins (s : State) (e : Engine) : (s.withEngine e).pins = s.pins := rfl
@[simp] theorem State.withEngine_chip (s : State) (e : Engine) : (s.withEngine e).chip = s.chip := rfl
@[simp] theorem State.withEngine_host (s : State) (e : Engine) : (s.withEngine e).host = s.host := rfl
@[simp] theorem State.withEngine_draws (s : State) (e : Engine) : (s.withEngine e).draws = s.draws := rfl
@[simp] theorem State.withEngine_tick (s : State) (e : Engine) : (s.withEngine e).tick = s.tick := rfl

/-! ### `State.drive` -/

@[simp] theorem State.drive_eng (s : State) (p : Pins) : (s.drive p).eng = s.eng := rfl
@[simp] theorem State.drive_pins (s : State) (p : Pins) : (s.drive p).pins = p := rfl
@[simp] theorem State.drive_chip (s : State) (p : Pins) : (s.drive p).chip = s.chip := rfl
@[simp] theorem State.drive_host (s : State) (p : Pins) : (s.drive p).host = s.host := rfl
@[simp] theorem State.drive_draws (s : State) (p : Pins) : (s.drive p).draws = s.draws := rfl
@[simp] theorem State.drive_tick (s : State) (p : Pins) : (s.drive p).tick = s.tick := rfl

/-! ### `State.resetEngine` -/

@[simp] theorem State.resetEngine_eng (s : State) : (s.resetEngine).eng = Engine.reset := rfl
@[simp] theorem State.resetEngine_pins (s : State) : (s.resetEngine).pins = s.pins := rfl
@[simp] theorem State.resetEngine_chip (s : State) : (s.resetEngine).chip = s.chip := rfl
@[simp] theorem State.resetEngine_host (s : State) : (s.resetEngine).host = s.host := rfl
@[simp] theorem State.resetEngine_draws (s : State) : (s.resetEngine).draws = s.draws := rfl
@[simp] theorem State.resetEngine_tick (s : State) : (s.resetEngine).tick = s.tick := rfl

/-! ### `State.offerNow` -/

@[simp] theorem State.offerNow_eng (s : State) (w : Word) : (s.offerNow w).eng = s.eng := rfl
@[simp] theorem State.offerNow_pins (s : State) (w : Word) : (s.offerNow w).pins = { s.pins with rst := false, cmdValid := true, cmdData := w } := rfl
@[simp] theorem State.offerNow_chip (s : State) (w : Word) : (s.offerNow w).chip = s.chip := rfl
@[simp] theorem State.offerNow_host (s : State) (w : Word) : (s.offerNow w).host = { s.host with offering := .deliver } := rfl
@[simp] theorem State.offerNow_draws (s : State) (w : Word) : (s.offerNow w).draws = s.draws := rfl
@[simp] theorem State.offerNow_tick (s : State) (w : Word) : (s.offerNow w).tick = s.tick := rfl

/-! ### The chip -/

@[simp] theorem Chip.undetermined_sel (n : Nat) (c : Chip) : (c.undetermined n).sel = selectorCode (Config.chipSelector n) := rfl
@[simp] theorem Chip.undetermined_latched (n : Nat) (c : Chip) : (c.undetermined n).latched = false := rfl
@[simp] theorem Chip.undetermined_sampleSel (n : Nat) (c : Chip) : (c.undetermined n).sampleSel = c.sampleSel := rfl
@[simp] theorem Chip.undetermined_edges (n : Nat) (c : Chip) : (c.undetermined n).edges = c.edges := rfl
@[simp] theorem Chip.undetermined_inContract (n : Nat) (c : Chip) : (c.undetermined n).inContract = c.inContract := rfl
@[simp] theorem Chip.undetermined_levelTicks (n : Nat) (c : Chip) : (c.undetermined n).levelTicks = c.levelTicks := rfl

@[simp] theorem Chip.latch_sampleSel (n : Nat) (c : Chip) : (c.latch n).sampleSel = c.sampleSel := by
  unfold Chip.latch; split <;> rfl
@[simp] theorem Chip.latch_edges (n : Nat) (c : Chip) : (c.latch n).edges = c.edges := by
  unfold Chip.latch; split <;> rfl
@[simp] theorem Chip.latch_inContract (n : Nat) (c : Chip) : (c.latch n).inContract = c.inContract := by
  unfold Chip.latch; split <;> rfl
@[simp] theorem Chip.latch_levelTicks (n : Nat) (c : Chip) : (c.latch n).levelTicks = c.levelTicks := by
  unfold Chip.latch; split <;> rfl

@[simp] theorem Chip.onReset_sel (n : Nat) (e : Engine) (c : Chip) : (c.onReset n e).sel = selectorCode (Config.chipSelector n) := rfl
@[simp] theorem Chip.onReset_latched (n : Nat) (e : Engine) (c : Chip) : (c.onReset n e).latched = false := rfl
@[simp] theorem Chip.onReset_sampleSel (n : Nat) (e : Engine) (c : Chip) : (c.onReset n e).sampleSel = c.sampleSel := rfl
@[simp] theorem Chip.onReset_edges (n : Nat) (e : Engine) (c : Chip) : (c.onReset n e).edges = 0 := rfl
@[simp] theorem Chip.onReset_inContract (n : Nat) (e : Engine) (c : Chip) :
    (c.onReset n e).inContract = if e.phase.reading then false
      else if e.phase = .pdown then powerDownMet (c.levelTicks + 1) else c.inContract := rfl

@[simp] theorem Chip.onPowerUp_sel (n : Nat) (c : Chip) : (c.onPowerUp n).sel = selectorCode (Config.chipSelector n) := rfl
@[simp] theorem Chip.onPowerUp_latched (n : Nat) (c : Chip) : (c.onPowerUp n).latched = false := rfl
@[simp] theorem Chip.onPowerUp_sampleSel (n : Nat) (c : Chip) : (c.onPowerUp n).sampleSel = c.sampleSel := rfl
@[simp] theorem Chip.onPowerUp_edges (n : Nat) (c : Chip) : (c.onPowerUp n).edges = 0 := rfl
@[simp] theorem Chip.onPowerUp_inContract (n : Nat) (c : Chip) : (c.onPowerUp n).inContract = powerDownMet (c.levelTicks + 1) := rfl

@[simp] theorem Chip.onReadDone_edges (n : Nat) (c : Chip) : (c.onReadDone n).edges = 0 := by
  unfold Chip.onReadDone; split <;> rfl
@[simp] theorem Chip.onReadDone_inContract (n : Nat) (c : Chip) : (c.onReadDone n).inContract = c.inContract := by
  unfold Chip.onReadDone; split <;> simp

@[simp] theorem Chip.onLevel_sel (e e' : Engine) (c : Chip) : (c.onLevel e e').sel = c.sel := rfl
@[simp] theorem Chip.onLevel_latched (e e' : Engine) (c : Chip) : (c.onLevel e e').latched = c.latched := rfl
@[simp] theorem Chip.onLevel_sampleSel (e e' : Engine) (c : Chip) : (c.onLevel e e').sampleSel = c.sampleSel := rfl
@[simp] theorem Chip.onLevel_edges (e e' : Engine) (c : Chip) : (c.onLevel e e').edges = c.edgesAfter e e' := rfl
@[simp] theorem Chip.onLevel_inContract (e e' : Engine) (c : Chip) :
    (c.onLevel e e').inContract = (c.inContract && edgeTimingMet e e' (c.levelTicks + 1)) := rfl

@[simp] theorem Chip.observe_sel (n : Nat) (rst : Bool) (e e' : Engine) (c : Chip) :
    (c.observe n rst e e').sel = (c.react n rst e e').sel := rfl
@[simp] theorem Chip.observe_latched (n : Nat) (rst : Bool) (e e' : Engine) (c : Chip) :
    (c.observe n rst e e').latched = (c.react n rst e e').latched := rfl
@[simp] theorem Chip.observe_sampleSel (n : Nat) (rst : Bool) (e e' : Engine) (c : Chip) :
    (c.observe n rst e e').sampleSel = (c.react n rst e e').sampleSel := rfl
@[simp] theorem Chip.observe_edges (n : Nat) (rst : Bool) (e e' : Engine) (c : Chip) :
    (c.observe n rst e e').edges = (c.react n rst e e').edges := rfl
@[simp] theorem Chip.observe_inContract (n : Nat) (rst : Bool) (e e' : Engine) (c : Chip) :
    (c.observe n rst e e').inContract = (c.react n rst e e').inContract := rfl
@[simp] theorem Chip.observe_levelTicks (n : Nat) (rst : Bool) (e e' : Engine) (c : Chip) :
    (c.observe n rst e e').levelTicks = c.levelAfter e e' := rfl

/-! ### `chipTick`, `State.withOffer`, `State.advanceTime` -/

@[simp] theorem chipTick_eng (s t : State) : (chipTick s t).eng = t.eng := rfl
@[simp] theorem chipTick_pins (s t : State) : (chipTick s t).pins = t.pins := rfl
@[simp] theorem chipTick_chip (s t : State) : (chipTick s t).chip = s.chip.observe (s.tick + 1) s.pins.rst s.eng t.eng := rfl
@[simp] theorem chipTick_host (s t : State) : (chipTick s t).host = t.host := rfl
@[simp] theorem chipTick_draws (s t : State) : (chipTick s t).draws = t.draws := rfl
@[simp] theorem chipTick_tick (s t : State) : (chipTick s t).tick = t.tick := rfl

@[simp] theorem State.withOffer_eng (t : State) (h : HostAgent) (w : Option Word) : (t.withOffer h w).eng = t.eng := by
  cases w <;> rfl
@[simp] theorem State.withOffer_chip (t : State) (h : HostAgent) (w : Option Word) : (t.withOffer h w).chip = t.chip := by
  cases w <;> rfl
@[simp] theorem State.withOffer_host (t : State) (h : HostAgent) (w : Option Word) : (t.withOffer h w).host = h := by
  cases w <;> rfl
@[simp] theorem State.withOffer_draws (t : State) (h : HostAgent) (w : Option Word) :
    (t.withOffer h w).draws = t.draws := by
  cases w <;> rfl
@[simp] theorem State.withOffer_tick (t : State) (h : HostAgent) (w : Option Word) : (t.withOffer h w).tick = t.tick := by
  cases w <;> rfl
@[simp] theorem State.withOffer_cmdValid (t : State) (h : HostAgent) (w : Option Word) :
    (t.withOffer h w).pins.cmdValid = w.isSome := by
  cases w <;> rfl

@[simp] theorem State.advanceTime_eng (s : State) : s.advanceTime.eng = s.eng := by
  unfold State.advanceTime; split <;> rfl
@[simp] theorem State.advanceTime_chip (s : State) : s.advanceTime.chip = s.chip := by
  unfold State.advanceTime; split <;> rfl
@[simp] theorem State.advanceTime_host (s : State) : s.advanceTime.host = s.host := by
  unfold State.advanceTime; split <;> rfl
@[simp] theorem State.advanceTime_tick (s : State) : s.advanceTime.tick = s.tick + 1 := by
  unfold State.advanceTime; split <;> rfl
@[simp] theorem State.advanceTime_draws (s : State) : s.advanceTime.draws = s.draws.tail := by
  unfold State.advanceTime; split <;> simp_all
@[simp] theorem State.advanceTime_cmdValid (s : State) : s.advanceTime.pins.cmdValid = s.pins.cmdValid := by
  unfold State.advanceTime; split <;> rfl
@[simp] theorem State.advanceTime_cmdData (s : State) : s.advanceTime.pins.cmdData = s.pins.cmdData := by
  unfold State.advanceTime; split <;> rfl

/-! ### `HostAgent` -/

@[simp] theorem HostAgent.returned_program (r : HostReturn) (h : HostAgent) : (h.returned r).program = h.program := rfl
@[simp] theorem HostAgent.returned_offering (r : HostReturn) (h : HostAgent) : (h.returned r).offering = h.offering := rfl
@[simp] theorem HostAgent.returned_owed (r : HostReturn) (h : HostAgent) : (h.returned r).owed = h.owed := rfl
@[simp] theorem HostAgent.returned_pause (r : HostReturn) (h : HostAgent) : (h.returned r).pause = h.pause := rfl
@[simp] theorem HostAgent.returned_store (r : HostReturn) (h : HostAgent) : (h.returned r).store = h.store := rfl
@[simp] theorem HostAgent.returned_returns (r : HostReturn) (h : HostAgent) :
    (h.returned r).returns = h.returns ++ [r] := rfl
@[simp] theorem HostAgent.abandon_owed (h : HostAgent) : h.abandon.owed = [] := rfl
@[simp] theorem HostAgent.abandon_store (h : HostAgent) : h.abandon.store = h.store := rfl
@[simp] theorem HostAgent.abandon_offering (h : HostAgent) : h.abandon.offering = h.offering := rfl
@[simp] theorem HostAgent.abandon_program (h : HostAgent) : h.abandon.program = h.program := rfl

end Sys2Proof.Machine
end

