-- ==== Sys2Proof/Laws/Ops.lean ====
section
/-!
SUPPORT. What each shared operation can do, said once: the provers cite these lemmas instead of unfolding.
-/
namespace Sys2Proof.Machine

/-! ## Outcomes -/

@[simp] theorem andThen_next {α β : Type} (a : α) (k : α → Host.Outcome β Fault Refusal) :
    andThen (.next a) k = k a := rfl
@[simp] theorem andThen_fault {α β : Type} (r : Fault) (k : α → Host.Outcome β Fault Refusal) :
    andThen (.fault r) k = .fault r := rfl
@[simp] theorem andThen_refused {α β : Type} (r : Refusal) (k : α → Host.Outcome β Fault Refusal) :
    andThen (.refused r) k = .refused r := rfl

/-- A sequence that goes on went on at both parts. -/
theorem andThen_eq_next {α β : Type} {o : Host.Outcome α Fault Refusal} {k : α → Host.Outcome β Fault Refusal} {b : β}
    (h : andThen o k = .next b) : ∃ a, o = .next a ∧ k a = .next b := by
  cases o with
  | next a => exact ⟨a, rfl, h⟩
  | fault r => cases h
  | refused r => cases h

/-! ## Accepting a command -/

/-- Where the phase accepts commands, the command's effect is the block's tick (R20, R21). -/
theorem whenReady_of_ready {s : State} (run : Engine) (h : s.eng.phase.ready = true) :
    s.whenReady run = .next (s.withEngine run) := by
  simp [State.whenReady, Engine.cmdReady, h]

/-- In a read phase no offer is accepted: the block's own tick goes on (R21). -/
theorem whenReady_of_busy {s : State} (run : Engine) (h : s.eng.phase.ready = false) :
    s.whenReady run = .next (s.withEngine (s.eng.advance s.pins.dout)) := by
  simp [State.whenReady, Engine.cmdReady, h]

/-- Everything `whenReady` can do: it answers a next state with another engine, one of two. -/
theorem whenReady_cases (s : State) (run : Engine) :
    (s.eng.phase.ready = true ∧ s.whenReady run = .next (s.withEngine run)) ∨
      (s.eng.phase.ready = false ∧ s.whenReady run = .next (s.withEngine (s.eng.advance s.pins.dout))) := by
  cases h : s.eng.phase.ready
  · exact .inr ⟨rfl, whenReady_of_busy run h⟩
  · exact .inl ⟨rfl, whenReady_of_ready run h⟩

/-- The phases that accept commands are three (R21). -/
theorem Phase.ready_iff (p : Phase) : p.ready = true ↔ p = .unconf ∨ p = .idle ∨ p = .pdown := by
  cases p <;> decide

/-- A command is accepted exactly when it is offered, the phase is ready, and `rst` is low (R20). -/
theorem accepted_iff (s : State) :
    s.accepted = true ↔ s.pins.cmdValid = true ∧ s.eng.phase.ready = true ∧ s.pins.rst = false := by
  simp [State.accepted, Engine.cmdReady, and_assoc]

/-! ## The sequencer -/

/-- In the waiting phases a tick without a command only lets the strobe fall (R112). -/
theorem Engine.advance_of_ready {e : Engine} (b : Bool) (h : e.phase.ready = true) : e.advance b = e.quiet := by
  unfold Engine.advance
  rcases (Phase.ready_iff _).1 h with h | h | h <;> rw [h]

theorem Engine.advance_rdHi {e : Engine} (b : Bool) (h : e.phase = .rdHi) : e.advance b = e.tickRdHi b := by
  simp [Engine.advance, h]
theorem Engine.advance_rdLo {e : Engine} (b : Bool) (h : e.phase = .rdLo) : e.advance b = e.tickRdLo := by
  simp [Engine.advance, h]
theorem Engine.advance_trHi {e : Engine} (b : Bool) (h : e.phase = .trHi) : e.advance b = e.tickTrHi := by
  simp [Engine.advance, h]
theorem Engine.advance_trLo {e : Engine} (b : Bool) (h : e.phase = .trLo) : e.advance b = e.tickTrLo := by
  simp [Engine.advance, h]
theorem Engine.advance_commit {e : Engine} (b : Bool) (h : e.phase = .commit) : e.advance b = e.finish := by
  simp [Engine.advance, h]

/-- Everything the high level of a data pulse can do (R108). -/
theorem Engine.tickRdHi_cases (b : Bool) (e : Engine) :
    (0 < e.wait ∧ e.tickRdHi b = e.waitTick) ∨
      (¬0 < e.wait ∧ e.tickRdHi b = { e with acc := shiftIn e.acc b }.level .rdLo false) := by
  unfold Engine.tickRdHi
  split
  · exact .inl ⟨‹_›, rfl⟩
  · exact .inr ⟨‹_›, rfl⟩

/-- Everything the low level of a data pulse can do (R109). -/
theorem Engine.tickRdLo_cases (e : Engine) :
    (0 < e.wait ∧ e.tickRdLo = e.waitTick) ∨
      (¬0 < e.wait ∧ e.bitIdx < 23 ∧ e.tickRdLo = { e with bitIdx := e.bitIdx + 1 }.level .rdHi true) ∨
        (¬0 < e.wait ∧ ¬e.bitIdx < 23 ∧ e.tickRdLo = { e with pulseIdx := 1 }.level .trHi true) := by
  unfold Engine.tickRdLo
  split
  · exact .inl ⟨‹_›, rfl⟩
  · split
    · exact .inr (.inl ⟨‹_›, ‹_›, rfl⟩)
    · exact .inr (.inr ⟨‹_›, ‹_›, rfl⟩)

/-- Everything the high level of a selector pulse can do (R110). -/
theorem Engine.tickTrHi_cases (e : Engine) :
    (0 < e.wait ∧ e.tickTrHi = e.waitTick) ∨ (¬0 < e.wait ∧ e.tickTrHi = e.level .trLo false) := by
  unfold Engine.tickTrHi
  split
  · exact .inl ⟨‹_›, rfl⟩
  · exact .inr ⟨‹_›, rfl⟩

/-- Everything the low level of a selector pulse can do (R111). -/
theorem Engine.tickTrLo_cases (e : Engine) :
    (0 < e.wait ∧ e.tickTrLo = e.waitTick) ∨
      (¬0 < e.wait ∧ e.pulseIdx < e.pending ∧ e.tickTrLo = { e with pulseIdx := e.pulseIdx + 1 }.level .trHi true) ∨
        (¬0 < e.wait ∧ ¬e.pulseIdx < e.pending ∧ e.tickTrLo = { e with phase := .commit }.quiet) := by
  unfold Engine.tickTrLo
  split
  · exact .inl ⟨‹_›, rfl⟩
  · split
    · exact .inr (.inl ⟨‹_›, ‹_›, rfl⟩)
    · exact .inr (.inr ⟨‹_›, ‹_›, rfl⟩)

/-- Everything a tick of a read can do, by what it leaves (R108 to R111, R114). -/
theorem Engine.advance_cases {e : Engine} (b : Bool) (h : e.phase.ready = false) :
    (e.phase ≠ .commit ∧ 0 < e.wait ∧ e.advance b = e.waitTick) ∨
    (e.phase = .rdHi ∧ ¬0 < e.wait ∧ e.advance b = { e with acc := shiftIn e.acc b }.level .rdLo false) ∨
    (e.phase = .rdLo ∧ ¬0 < e.wait ∧ e.bitIdx < 23 ∧
      e.advance b = { e with bitIdx := e.bitIdx + 1 }.level .rdHi true) ∨
    (e.phase = .rdLo ∧ ¬0 < e.wait ∧ ¬e.bitIdx < 23 ∧ e.advance b = { e with pulseIdx := 1 }.level .trHi true) ∨
    (e.phase = .trHi ∧ ¬0 < e.wait ∧ e.advance b = e.level .trLo false) ∨
    (e.phase = .trLo ∧ ¬0 < e.wait ∧ e.pulseIdx < e.pending ∧
      e.advance b = { e with pulseIdx := e.pulseIdx + 1 }.level .trHi true) ∨
    (e.phase = .trLo ∧ ¬0 < e.wait ∧ ¬e.pulseIdx < e.pending ∧ e.advance b = { e with phase := .commit }.quiet) ∨
    (e.phase = .commit ∧ e.advance b = e.finish) := by
  have hp : e.phase = .rdHi ∨ e.phase = .rdLo ∨ e.phase = .trHi ∨ e.phase = .trLo ∨ e.phase = .commit := by
    revert h
    cases e.phase <;> simp [Phase.ready]
  rcases hp with hp | hp | hp | hp | hp
  · rw [Engine.advance_rdHi b hp]
    rcases Engine.tickRdHi_cases b e with ⟨hw, he⟩ | he
    · exact .inl ⟨by simp [hp], hw, he⟩
    · exact .inr (.inl ⟨hp, he⟩)
  · rw [Engine.advance_rdLo b hp]
    rcases Engine.tickRdLo_cases e with ⟨hw, he⟩ | he | he
    · exact .inl ⟨by simp [hp], hw, he⟩
    · exact .inr (.inr (.inl ⟨hp, he⟩))
    · exact .inr (.inr (.inr (.inl ⟨hp, he⟩)))
  · rw [Engine.advance_trHi b hp]
    rcases Engine.tickTrHi_cases e with ⟨hw, he⟩ | he
    · exact .inl ⟨by simp [hp], hw, he⟩
    · exact .inr (.inr (.inr (.inr (.inl ⟨hp, he⟩))))
  · rw [Engine.advance_trLo b hp]
    rcases Engine.tickTrLo_cases e with ⟨hw, he⟩ | he | he
    · exact .inl ⟨by simp [hp], hw, he⟩
    · exact .inr (.inr (.inr (.inr (.inr (.inl ⟨hp, he⟩)))))
    · exact .inr (.inr (.inr (.inr (.inr (.inr (.inl ⟨hp, he⟩))))))
  · rw [Engine.advance_commit b hp]
    exact .inr (.inr (.inr (.inr (.inr (.inr (.inr ⟨hp, rfl⟩))))))

/-! ## The commands' engine functions -/

/-- Everything POLL can do at its acceptance tick (R87 to R89). -/
theorem Engine.poll_cases (dout : Bool) (e : Engine) :
    (e.phase = .unconf ∧ e.poll dout = e.reject) ∨
      (e.phase ≠ .unconf ∧ (e.phase = .pdown ∨ dout = true) ∧ e.poll dout = e.respond statusNoData 0) ∨
        (e.phase ≠ .unconf ∧ e.phase ≠ .pdown ∧ dout = false ∧ e.poll dout = e.readStart) := by
  unfold Engine.poll
  split
  · exact .inl ⟨‹_›, rfl⟩
  · split
    · exact .inr (.inl ⟨‹_›, .inl ‹_›, rfl⟩)
    · split
      · exact .inr (.inl ⟨‹_›, .inr ‹_›, rfl⟩)
      · exact .inr (.inr ⟨‹_›, ‹_›, by simpa using ‹¬dout = true›, rfl⟩)

/-- Everything POWER_DOWN can do (R123, R126). -/
theorem Engine.powerDown_cases (e : Engine) :
    (e.phase = .unconf ∧ e.powerDown = e.reject) ∨
      (e.phase = .pdown ∧ e.powerDown = e.respond statusOk 0) ∨
        (e.phase ≠ .unconf ∧ e.phase ≠ .pdown ∧
          e.powerDown = { e with sck := true, phase := .pdown }.respond statusOk 0) := by
  unfold Engine.powerDown
  split
  · exact .inl ⟨‹_›, rfl⟩
  · split
    · exact .inr (.inl ⟨‹_›, rfl⟩)
    · exact .inr (.inr ⟨‹_›, ‹_›, rfl⟩)

/-- Everything POWER_UP can do (R124, R126). -/
theorem Engine.powerUp_cases (e : Engine) :
    (e.phase = .unconf ∧ e.powerUp = e.reject) ∨
      (e.phase = .idle ∧ e.powerUp = e.respond statusOk 0) ∨
        (e.phase ≠ .unconf ∧ e.phase ≠ .idle ∧
          e.powerUp = { e with sck := false, phase := .idle }.respond statusOk 0) := by
  unfold Engine.powerUp
  split
  · exact .inl ⟨‹_›, rfl⟩
  · split
    · exact .inr (.inl ⟨‹_›, rfl⟩)
    · exact .inr (.inr ⟨‹_›, ‹_›, rfl⟩)

/-! ## A step -/

/-- A step that goes on is an engine tick, then the other agents' moves. -/
theorem step_eq_next {s u : State} (h : step s = .next u) :
    ∃ t, engineTick s = .next t ∧ platformTick s t = .next u := andThen_eq_next h

/-- Everything a tick can do to the engine in a phase that accepts commands, without a reset: answer and change nothing else,
wait, take a configuration, start a read, go to PDOWN or come from it (R105, R112). -/
def Engine.ReadyTick (e e' : Engine) : Prop :=
  (∃ v st d, e' = { e with rspValid := v, rspStatus := st, rspData := d }) ∨
    (e.phase = .unconf ∧ ∃ n sel d, sel ≠ 0 ∧ e' = e.configured n sel d) ∨
      (e.phase = .idle ∧ e' = e.readStart) ∨
        (e.phase = .idle ∧ e' = { e with sck := true, phase := .pdown }.respond statusOk 0) ∨
          (e.phase = .pdown ∧ e' = { e with sck := false, phase := .idle }.respond statusOk 0)

/-- A response by itself is such a tick. -/
theorem Engine.readyTick_respond (e : Engine) (st : Status) (d : Word) : e.ReadyTick (e.respond st d) :=
  .inl ⟨true, st, d, rfl⟩

/-- Every command's arm is such a tick where the phase is ready, and the block's own tick elsewhere. -/
theorem exec_cases {i : Instr} {s t : State} (h : exec i s = .next t) :
    (s.eng.phase.ready = true ∧ s.eng.ReadyTick t.eng) ∨
      (s.eng.phase.ready = false ∧ t.eng = s.eng.advance s.pins.dout) := by
  have key : ∀ run, s.whenReady run = .next t → (s.eng.phase.ready = true → s.eng.ReadyTick run) →
      (s.eng.phase.ready = true ∧ s.eng.ReadyTick t.eng) ∨
        (s.eng.phase.ready = false ∧ t.eng = s.eng.advance s.pins.dout) := by
    intro run hk hr
    rcases whenReady_cases s run with ⟨a, b⟩ | ⟨a, b⟩ <;> rw [b] at hk <;> cases hk
    · exact .inl ⟨a, hr a⟩
    · exact .inr ⟨a, rfl⟩
  cases i with
  | configure n hi sel d lo =>
    refine key _ h fun _ => ?_
    split
    · exact Engine.readyTick_respond ..
    · split
      · exact Engine.readyTick_respond ..
      · exact .inr (.inl ⟨not_not.1 ‹_›, n, sel, d, ‹_›, rfl⟩)
  | poll x =>
    refine key _ h fun hr => ?_
    rcases Engine.poll_cases s.pins.dout s.eng with ⟨_, b⟩ | ⟨_, _, b⟩ | ⟨hu, hp, _, b⟩ <;> rw [b]
    · exact Engine.readyTick_respond ..
    · exact Engine.readyTick_respond ..
    · exact .inr (.inr (.inl ⟨by have := (Phase.ready_iff _).1 hr; tauto, rfl⟩))
  | powerDown x =>
    refine key _ h fun hr => ?_
    rcases Engine.powerDown_cases s.eng with ⟨_, b⟩ | ⟨_, b⟩ | ⟨hu, hp, b⟩ <;> rw [b]
    · exact Engine.readyTick_respond ..
    · exact Engine.readyTick_respond ..
    · exact .inr (.inr (.inr (.inl ⟨by have := (Phase.ready_iff _).1 hr; tauto, rfl⟩)))
  | powerUp x =>
    refine key _ h fun hr => ?_
    rcases Engine.powerUp_cases s.eng with ⟨_, b⟩ | ⟨_, b⟩ | ⟨hu, hp, b⟩ <;> rw [b]
    · exact Engine.readyTick_respond ..
    · exact Engine.readyTick_respond ..
    · exact .inr (.inr (.inr (.inr ⟨by have := (Phase.ready_iff _).1 hr; tauto, rfl⟩)))
  | isReady x => exact key _ h fun _ => Engine.readyTick_respond ..
  | readStatus x => exact key _ h fun _ => Engine.readyTick_respond ..
  | reservedZero x => exact key _ h fun _ => Engine.readyTick_respond ..
  | reservedSeven x => exact key _ h fun _ => Engine.readyTick_respond ..
  | reservedHigh op x => exact key _ h fun _ => Engine.readyTick_respond ..

/-- Everything the block's tick can do to the engine (R105). -/
theorem engineTick_cases {s t : State} (h : engineTick s = .next t) :
    (s.pins.rst = true ∧ t.eng = .reset) ∨
      (s.pins.rst = false ∧ s.eng.phase.ready = true ∧ s.eng.ReadyTick t.eng) ∨
        (s.pins.rst = false ∧ s.eng.phase.ready = false ∧ t.eng = s.eng.advance s.pins.dout) := by
  unfold engineTick at h
  cases hr : s.pins.rst with
  | true => rw [if_pos hr] at h; cases h; exact .inl ⟨rfl, rfl⟩
  | false =>
    rw [if_neg (by simp [hr])] at h
    split at h
    · exact .inr ((exec_cases h).imp (fun a => ⟨rfl, a⟩) fun a => ⟨rfl, a⟩)
    · cases h
      cases hp : s.eng.phase.ready with
      | true => exact .inr (.inl ⟨rfl, rfl, .inl ⟨false, _, _, Engine.advance_of_ready _ hp⟩⟩)
      | false => exact .inr (.inr ⟨rfl, rfl, rfl⟩)

/-- The other agents leave the engine as its tick left it, the chip is what it saw of that tick, and the counter
advances. -/
theorem platformTick_eq_next {s t u : State} (h : platformTick s t = .next u) :
    u.eng = t.eng ∧ u.chip = s.chip.observe (s.tick + 1) s.pins.rst s.eng t.eng ∧ u.tick = t.tick + 1 := by
  obtain ⟨v, hv, hu⟩ := andThen_eq_next h
  obtain ⟨a, _, hk⟩ := andThen_eq_next hv
  cases hu
  split at hk
  · cases hk
    exact ⟨by simp, by simp, by simp⟩
  · obtain ⟨r, _, hr⟩ := andThen_eq_next hk
    cases hr
    exact ⟨by simp, by simp, by simp⟩

/-! ## The chip -/

/-- What a tick can be to the chip, by the block's phase. -/
theorem Chip.react_cases (n : Nat) (rst : Bool) (e e' : Engine) (c : Chip) :
    (rst = true ∧ c.react n rst e e' = c.onReset n e) ∨
    (rst = false ∧ e.phase = .commit ∧ c.react n rst e e' = c.onReadDone n) ∨
    (rst = false ∧ e.phase = .pdown ∧ e'.phase = .pdown ∧ c.react n rst e e' = c) ∨
    (rst = false ∧ e.phase = .pdown ∧ e'.phase ≠ .pdown ∧ c.react n rst e e' = c.onPowerUp n) ∨
    (rst = false ∧ e.phase ≠ .commit ∧ e.phase ≠ .pdown ∧ c.react n rst e e' = c.onLevel e e') := by
  unfold Chip.react
  cases rst <;> by_cases hc : e.phase = .commit <;> by_cases hp : e.phase = .pdown <;>
    by_cases hp' : e'.phase = .pdown <;> simp_all

/-- A frame of 24 + N pulses, N in 1..3, latches N (R174). -/
theorem Chip.latch_of_edges {n : Nat} {c : Chip} {k : SelCode} (hk : k ≠ 0) (h : c.edges = Config.sampleBits + k.toNat) :
    c.latch n = { c with sel := k, latched := true } := by
  have h3 := k.isLt
  have h0 : k.toNat ≠ 0 := fun h => hk (by simpa using congrArg (BitVec.ofNat 2) h)
  have hs : frameSelector c.edges = some k := by simp [frameSelector, h, Config.sampleBits]; omega
  simp [Chip.latch, hs]

/-! ## construct -/

/-- construct's word is the CONFIGURE of the fields, unless S does not map the gain (R73). -/
theorem ConstructArgs.word_eq (a : ConstructArgs) :
    a.word = (gainCode a.gainValue).map fun sel => encode (.configure a.nchRaw 0 sel a.delay 0) := by
  have hn : a.nchRaw.toNat ≤ 255 := Nat.le_of_lt_succ a.nchRaw.isLt
  have hd : a.delay.toNat ≤ 255 := Nat.le_of_lt_succ a.delay.isLt
  have key : ∀ sel, gainCode a.gainValue = some sel → 1 ≤ sel.toNat ∧ sel.toNat ≤ 3 := by
    unfold gainCode
    intro sel h
    split at h
    · cases h; decide
    · split at h
      · cases h; decide
      · split at h <;> cases h; decide
  cases h : gainCode a.gainValue with
  | none => simp [ConstructArgs.word, asmConstruct, h]
  | some sel => simp [ConstructArgs.word, asmConstruct, asmConfigure, h, hn, hd, key sel h]

/-! ## The Channel Store -/

/-- A push puts the sample in front and keeps the rest in order (R135). -/
theorem Ring.push_slots (cap : Nat) (v : Int) (r : Ring) : (r.push cap v).slots = (v :: r.slots).take cap := rfl

/-- A push counts up to the capacity (R135). -/
theorem Ring.push_fill (cap : Nat) (v : Int) (r : Ring) : (r.push cap v).fill = min (r.fill + 1) cap := rfl

/-- A channel number from 1 on names the ring at its place (R132). -/
@[simp] theorem Store.ring?_succ (st : Store) (k : Nat) : st.ring? (k + 1) = st.rings[k]? := rfl

/-- There is no channel 0 (R141). -/
@[simp] theorem Store.ring?_zero (st : Store) : st.ring? 0 = none := rfl

/-- PUSH on a channel that has a ring replaces that ring alone (R135). -/
theorem Store.push_of_ring {st : Store} {ch : Channel} {r : Ring} (v : Int) (h : st.ring? ch.toNat = some r) :
    ∃ st', st.push ch v = some st' ∧ st'.ring? ch.toNat = some (r.push st.cap v) ∧
      (∀ k, k ≠ ch.toNat → st'.ring? k = st.ring? k) ∧ st'.cap = st.cap ∧ st'.nch = st.nch ∧ st'.cal1 = st.cal1 ∧
        st'.cal2 = st.cal2 := by
  refine ⟨_, by unfold Store.push; rw [h], ?_⟩
  cases ch <;> simp only [Channel.toNat, Store.ring?_succ] at * <;>
    obtain ⟨hlt, _⟩ := List.getElem?_eq_some_iff.1 h <;> refine ⟨by simp [hlt], fun k hk => ?_, by simp⟩ <;>
      rcases k with _ | k
  · rfl
  · simp only [Store.ring?_succ]; rw [List.getElem?_set_ne]; omega
  · rfl
  · simp only [Store.ring?_succ]; rw [List.getElem?_set_ne]; omega

/-- An average that has a value is the sum of the newest slots over their count (R138). -/
theorem Store.average_eq_ok {st : Store} {ch n : Nat} {a : Rat} (h : st.average ch n = .ok a) :
    ∃ r, st.ring? ch = some r ∧ min n st.cap ≠ 0 ∧
      a = ((r.slots.take (min n st.cap)).sum : Int) / (min n st.cap : Nat) := by
  unfold Store.average at h
  split at h
  · cases h
  · split at h
    · cases h
    · exact ⟨_, ‹_›, ‹_›, by cases h; rfl⟩

end Sys2Proof.Machine
end

