-- ==== Sys2Proof/Laws/PerInstr.lean ====
section
/-!
SUPPORT. A statement about each command as written, per constructor: the encoder puts the opcode the opcode map gives it
into c[31:28] (30_encoding.md R57, R60), so that the command is recognised by those bits alone (R64).
-/
namespace Sys2Proof.Laws.OpcodeField
open Sys2Proof

/-- The encoded word's OP field is the command's opcode. -/
def Statement (i : Instr) : Prop := fieldOp (encode i) = i.opcode

/-- The top four bits of a format-N word. -/
theorem fieldOp_encodeN (op : BitVec 4) (ign : BitVec 28) : fieldOp (encodeN op ign) = op := by
  unfold fieldOp encodeN
  ext j hj
  simp only [BitVec.getElem_extractLsb']
  exact (BitVec.getLsbD_append (x := op) (y := ign)).trans (by simp [hj])

theorem configure (nchRaw : Byte) (ignHi : BitVec 2) (sel : SelCode) (dly ignLo : Byte) :
    Statement (.configure nchRaw ignHi sel dly ignLo) :=
  fieldOp_encodeN 0x1#4 (nchRaw ++ ignHi ++ sel ++ dly ++ ignLo)

theorem poll (ign : BitVec 28) : Statement (.poll ign) := fieldOp_encodeN _ _
theorem powerDown (ign : BitVec 28) : Statement (.powerDown ign) := fieldOp_encodeN _ _
theorem powerUp (ign : BitVec 28) : Statement (.powerUp ign) := fieldOp_encodeN _ _
theorem isReady (ign : BitVec 28) : Statement (.isReady ign) := fieldOp_encodeN _ _
theorem readStatus (ign : BitVec 28) : Statement (.readStatus ign) := fieldOp_encodeN _ _
theorem reservedZero (ign : BitVec 28) : Statement (.reservedZero ign) := fieldOp_encodeN _ _
theorem reservedSeven (ign : BitVec 28) : Statement (.reservedSeven ign) := fieldOp_encodeN _ _
theorem reservedHigh (op : BitVec 4) (ign : BitVec 28) : Statement (.reservedHigh op ign) := fieldOp_encodeN _ _

end Sys2Proof.Laws.OpcodeField
end

