-- ==== Sys2Proof/Tests/Slice0.lean ====
section
/-!
SUPPORT. Small tests, expected results from spec/95_test_vectors.md or the rule named; and for every statement of
Certificates/Slice0/Obligations.lean with hypotheses, a witness that meets them.
-/
namespace Sys2Proof.Tests
open Sys2Proof Sys2Proof.Machine

/-! ## Helpers -/

/-- The engine of a next state. -/
def engOf (o : Host.Outcome State Fault Refusal) : Option Engine :=
  match o with
  | .next t => some t.eng
  | .fault _ => none
  | .refused _ => none

/-- The host of a next state. -/
def hostOf (o : Host.Outcome State Fault Refusal) : Option HostAgent :=
  match o with
  | .next t => some t.host
  | .fault _ => none
  | .refused _ => none

/-- A platform at rest with this engine and these port levels. -/
def at' (e : Engine) (p : Pins) : State :=
  { eng := e, pins := p, chip := .reset, host := .reset, draws := [], tick := 0 }

/-- Port levels: a word offered, `rst` low. -/
def offering (w : Word) (dout : Bool) : Pins := { rst := false, cmdValid := true, cmdData := w, dout := dout }

/-- Port levels: nothing offered, `rst` low. -/
def silent (dout : Bool) : Pins := { rst := false, cmdValid := false, cmdData := 0, dout := dout }

/-- `rst` high. -/
def resetting (valid : Bool) : Pins := { rst := true, cmdValid := valid, cmdData := 0x10110000, dout := true }

/-- Configured with two channels, sel = 3, dly = 0 (the example of R77). -/
def two3 : Engine := { Engine.reset with phase := .idle, cfgNch := .two, cfgSel := 3, pending := 2 }

/-- Configured with one channel, sel = 1, dly = 0. -/
def one1 : Engine := { Engine.reset with phase := .idle, cfgSel := 1, pending := 1 }

/-- `one1` powered down. -/
def one1Down : Engine := { one1 with phase := .pdown, sck := true }

/-! ## Well-formedness: the one check -/

theorem test_wellFormed_refuses : (Instr.reservedHigh 3 0).wellFormed = false := by decide
theorem test_wellFormed_lowest : (Instr.reservedHigh 8 0).wellFormed = true := by decide

/-! ## Decoding: words written out from R58 and R60 (L2.1, L2.2) -/

theorem test_decode_configure : decode 0b0001_00000010_00_11_00000001_00000000#32 = .configure 2 0 3 1 0 := by decide
theorem test_decode_configure_ignored : decode 0x1FFFFFFF#32 = .configure 0xFF 3 3 0xFF 0xFF := by decide
theorem test_decode_poll : decode 0b0010_0000000000000000000000000001#32 = .poll 1 := by decide
theorem test_decode_powerDown : decode 0x30000000#32 = .powerDown 0 := by decide
theorem test_decode_powerUp : decode 0x40000000#32 = .powerUp 0 := by decide
theorem test_decode_isReady : decode 0x5ABCDEF1#32 = .isReady 0xABCDEF1 := by decide
theorem test_decode_readStatus : decode 0x60000000#32 = .readStatus 0 := by decide
theorem test_decode_reservedZero : decode 0x00000005#32 = .reservedZero 5 := by decide
theorem test_decode_reservedSeven : decode 0x70000000#32 = .reservedSeven 0 := by decide
theorem test_decode_reservedHigh : decode 0xF0000000#32 = .reservedHigh 15 0 := by decide
theorem test_encode_configure : encode (.configure 2 0 1 0 0) = 0x10210000#32 := by decide
theorem test_decodeTableWord : decodeTableWord 32 0x20000000 = some (.poll 0) := by decide
theorem test_decodeBits_longer : decodeBits 40 0 = .error (.notOneWord 40) := by rfl
theorem test_decodeBits_overflow : decodeTableWord 32 (2 ^ 32) = none := by decide

/-! ## CONFIGURE (L2.2) -/

/-- 0x10230100 in UNCONF: IDLE / 2 / 3 / 1 / 2 / 2. -/
theorem test_configure_two_channels :
    engOf (step (State.reset.withFetchWord 32 0x10230100)) = some { Engine.reset with
      phase := .idle, cfgNch := .two, cfgSel := 3, cfgDly := 1, pending := 2, lastCh := .ch2
      rspValid := true, rspStatus := 0, rspData := 0 } := by decide

/-- 0x102C0000: the ignored bits [19:18] do not rescue SEL = 0; REJECTED, UNCONF unchanged. -/
theorem test_configure_sel_zero :
    engOf (step (State.reset.withFetchWord 32 0x102C0000)) = some { Engine.reset with
      rspValid := true, rspStatus := 0b100 } := by decide

/-! ## IS_READY and READ_STATUS (L2.5) -/

theorem test_isReady_idle : (engOf (exec (.isReady 0) (at' one1 (offering 0x50000000 false)))).map (·.rspData) = some 1 := by
  decide
theorem test_isReady_pdown :
    (engOf (exec (.isReady 0) (at' one1Down (offering 0x50000000 false)))).map (·.rspData) = some 0 := by
  decide
theorem test_readStatus_example :
    (engOf (exec (.readStatus 0) (at' two3 (offering 0x60000000 true)))).map (·.rspData) = some 0x000005BA := by
  decide
theorem test_readStatus_pdown :
    (engOf (exec (.readStatus 0) (at' { one1Down with cfgSel := 2, pending := 2 } (offering 0x60000000 false)))).map
      (·.rspData) = some 0x000003A6 := by
  decide

/-! ## POLL (L2.4, L2.7) and the wire -/

theorem test_poll_starts :
    (engOf (exec (.poll 0) (at' one1 (offering 0x20000000 false)))).map (fun e => (e.phase, e.sck, e.rspValid)) =
      some (.rdHi, true, false) := by
  decide
theorem test_poll_no_data :
    engOf (exec (.poll 0) (at' one1Down (offering 0x20000000 false))) =
      some { one1Down with rspValid := true, rspStatus := 0b011 } := by
  decide

/-- Tick 1 of the d = 0 trace of L2.7: sample b_0, `sck` falls, RD_LO. -/
theorem test_rdHi_samples :
    (engOf (engineTick (at' { one1 with phase := .rdHi, sck := true, acc := 0x800001 } (silent true)))).map
      (fun e => (e.acc, e.sck, e.phase)) = some (0x000003, false, .rdLo) := by
  decide

/-- Tick 48: after the 24th data pulse the first selector pulse begins. -/
theorem test_rdLo_last :
    (engOf (engineTick (at' { one1 with phase := .rdLo, bitIdx := 23 } (silent true)))).map
      (fun e => (e.phase, e.pulseIdx, e.sck)) = some (.trHi, 1, true) := by
  decide

/-- Tick 49: the selector pulse falls. -/
theorem test_trHi_falls :
    (engOf (engineTick (at' { one1 with phase := .trHi, pulseIdx := 1, sck := true } (silent true)))).map
      (fun e => (e.phase, e.sck)) = some (.trLo, false) := by
  decide

/-- Tick 50: pulse_idx 1 = pending 1, so COMMIT. -/
theorem test_trLo_commits :
    (engOf (engineTick (at' { one1 with phase := .trLo, pulseIdx := 1 } (silent true)))).map (·.phase) = some .commit := by
  decide

/-- R104: pending 2, last_ch 2, w = 0xFFFFF0: CH1 0xFFFFFFF0, last_ch 1, pending 1. -/
theorem test_commit_example :
    (engOf (engineTick (at' { one1 with phase := .commit, cfgNch := .two, pending := 2, acc := 0xFFFFF0 } (silent true)))).map
      (fun e => (e.rspStatus, e.rspData, e.lastCh, e.pending)) = some (0b001, 0xFFFFFFF0, .ch1, 1) := by
  decide

/-- L3.2 read 4: CH2 with 0xFFFF00, pending 2 again. -/
theorem test_commit_channel_two :
    (engOf (engineTick (at' { two3 with phase := .commit, lastCh := .ch1, pending := 3, acc := 0xFFFF00 } (silent true)))).map
      (fun e => (e.rspStatus, e.rspData, e.lastCh, e.pending)) = some (0b010, 0xFFFFFF00, .ch2, 2) := by
  decide

/-- L2.3: the trace of 0xABCDEF. -/
theorem test_sampleWord : sampleWord 0xABCDEF = 0xFFABCDEF := by decide

/-- L1.1, L2.3: the recurrence on 0xFFFFF0. -/
theorem test_accumulate : accumulate (List.replicate 20 true ++ List.replicate 4 false) = -16 := by decide

/-- L2.7: durations for N = 3, d = 1, and N = 2, d = 255. -/
theorem test_durations : responseTick 3 1 = 110 ∧ responseTick 2 255 = 13314 := by decide

/-! ## Power (L2.8), reserved (R61), reset (L2.9) -/

theorem test_powerDown_idle :
    (engOf (exec (.powerDown 0) (at' one1 (offering 0x30000000 true)))).map (fun e => (e.phase, e.sck, e.rspStatus)) =
      some (.pdown, true, 0) := by
  decide
theorem test_powerDown_unconf :
    engOf (exec (.powerDown 0) (at' .reset (offering 0x30000000 true))) =
      some { Engine.reset with rspValid := true, rspStatus := 0b100 } := by
  decide
theorem test_powerUp_pdown :
    (engOf (exec (.powerUp 0) (at' one1Down (offering 0x40000000 true)))).map (fun e => (e.phase, e.sck, e.rspStatus)) =
      some (.idle, false, 0) := by
  decide
theorem test_reservedZero : (engOf (step (State.reset.withFetchWord 32 0x00000000))).map (·.rspStatus) = some 0b100 := by
  decide
theorem test_reservedSeven : (engOf (step (State.reset.withFetchWord 32 0x70000000))).map (·.rspStatus) = some 0b100 := by
  decide
theorem test_reservedHigh : (engOf (step (State.reset.withFetchWord 32 0xF0000000))).map (·.rspStatus) = some 0b100 := by
  decide
theorem test_reset_wins : engOf (engineTick (at' two3 (resetting true))) = some Engine.reset := by decide

/-! ## The Channel Store (L1.4 to L1.10, L2.10) -/

/-- The buffer of L1.7: capacity 4, [5, -16, 16, 0], three ingests. -/
def store17 : Store :=
  { Store.initial 4 .one with rings := [{ slots := [5, -16, 16, 0], fill := 3 }] }

theorem test_push_evicts :
    ([1, 2, 3, 4].foldl (fun r v => r.push 3 v) (Ring.empty 3)) = { slots := [4, 3, 2], fill := 3 } := by decide
theorem test_push_capacity_one : ((Ring.empty 1).push 1 7).push 1 8 = { slots := [8], fill := 1 } := by decide
theorem test_average_three : store17.average 1 3 = .ok (5 / 3) := by
  norm_num [store17, Store.average, Store.initial, Store.ring?]
theorem test_average_underfilled : store17.average 1 20 = .ok (5 / 4) := by
  norm_num [store17, Store.average, Store.initial, Store.ring?]
theorem test_average_no_channel : store17.average 2 1 = .error (.noSuchChannel 2) := by rfl
theorem test_average_of_none : store17.average 1 0 = .error .averageOfNone := by rfl
theorem test_tareCorrected : (store17.setOffset 1 2).tareCorrected 1 3 = .ok (-1 / 3) := by
  norm_num [store17, Store.average, Store.initial, Store.ring?, Store.tareCorrected, Store.setOffset, Store.cal?,
    Calibration.initial]
theorem test_calibrated : ((store17.setOffset 1 2).setScale 1 (1 / 2)).calibrated 1 3 = .ok (-2 / 3) := by
  norm_num [store17, Store.average, Store.initial, Store.ring?, Store.calibrated, Store.tareCorrected, Store.setOffset,
    Store.setScale, Store.cal?, Calibration.initial]
theorem test_setOffset_unknown : store17.setOffset 3 9 = store17 := by rfl
theorem test_trunc : truncRat (203 / 2) = 101 ∧ truncRat (-203 / 2) = -101 := by decide +kernel

/-! ## The host agent and the assembler -/

/-- The host with the store of L1.7. -/
def host17 : HostAgent := { HostAgent.reset with store := some store17 }

theorem test_poll_and_ingest_offers :
    host17.begin .pollAndIngest = .next ({ host17 with offering := .ingest }, some 0x20000000) := by rfl
theorem test_ingest_no_data : host17.ingest 0b011 0 = .next (host17, none) := by rfl

/-- L3.4: the CH1 response -16 goes in front of the ring. -/
theorem test_capture_pushes :
    (hostOf (hostTick (at' { one1 with rspValid := true, rspStatus := 0b001, rspData := 0xFFFFFFF0 } (silent true) |>
        fun s => { s with host := { host17 with owed := [.ingest] } }) State.reset)).map
      (fun h => (h.store.map (·.rings), h.returns, h.owed)) =
      some (some [{ slots := [-16, 5, -16, 16], fill := 4 }], [.updated .ch1], []) := by decide

/-- L1.3: the defaults of construct give CONFIGURE 0x10110000 and capacity 20. -/
theorem test_construct_defaults :
    HostAgent.reset.begin (.construct { cap := none, cells := none, gain := none, dly := none }) =
      .next ({ HostAgent.reset with offering := .construct 20 .one }, some 0x10110000) := by rfl
theorem test_construct_capacity_zero : 
    HostAgent.reset.begin (.construct { cap := some 0, cells := none, gain := none, dly := none }) =
      .refused .capacityZero := by rfl
/-- D8, R59: a count above 255 is truncated to the field, 511 to 255, and normalized to one channel. -/
theorem test_construct_truncates :
    HostAgent.reset.begin (.construct { cap := some 4, cells := some 511, gain := some 64, dly := some 2 }) =
      .next ({ HostAgent.reset with offering := .construct 4 .one }, some 0x1FF30200) := by rfl
/-- L1.3, R73: a CONSTRUCT line is the host's construct, its capacity the default. -/
theorem test_line_construct :
    lineCall "CONSTRUCT cells=2".toList =
      .ok (some (.construct { cap := none, cells := some 2, gain := none, dly := none })) := by decide
theorem test_tare_loop :
    host17.begin (.tare 1 2) = .next ({ host17 with offering := .tare 1 2 0 }, some 0x20000000) := by rfl

/-- R72's example line. -/
theorem test_assemble_example :
    assembleLine "CONFIGURE nch=2, sel=1, dly=0 ; two channels".toList = .ok (some 0x10210000#32) := by decide
theorem test_assemble_order : assembleLine "CONFIGURE dly=0x01, sel=3, nch=2".toList = .ok (some 0x10230100#32) := by decide
theorem test_assemble_sel_zero : assembleLine "CONFIGURE nch=2, sel=0, dly=0".toList = .error .outOfRange := by decide
theorem test_assemble_omitted : assembleLine "CONFIGURE nch=2, sel=1".toList = .error .missingOperand := by decide
theorem test_assemble_construct : assembleLine "CONSTRUCT".toList = .ok (some 0x10110000#32) := by decide
theorem test_assemble_read_status : assembleLine "READ_STATUS".toList = .ok (some 0x60000000#32) := by decide

/-! ## Witnesses: each statement's hypotheses can be met -/

theorem witness_DecodeEncodeRoundTrip :
    (Instr.configure 2 0 3 1 0).wellFormed = true ∧ (Instr.reservedHigh 15 1).wellFormed = true := by decide
theorem witness_ConfigureOperandFields :
    (0x10230100#32).toNat / 2 ^ 28 = 1 ∧ (0x10330100#32).toNat / 2 ^ 28 = 1 := by decide
theorem witness_StepRunsDecodedCommand :
    (at' one1 (offering 0x20000000 false)).pins.rst = false ∧ (at' one1 (offering 0x20000000 false)).pins.cmdValid = true ∧
      decodeTableWord 32 0x20000000 = some (.poll 0) := by decide
theorem witness_CommandHeldWhileReading :
    let s := at' { one1 with phase := .rdHi, sck := true } (offering 0x30000000 false)
    s.eng.phase.ready = false ∧ s.pins.rst = false ∧ s.pins.cmdValid = true ∧ ∃ t, step s = .next t :=
  ⟨rfl, rfl, rfl, _, rfl⟩
theorem witness_ready_phases :
    Engine.reset.phase.ready = true ∧ one1.phase.ready = true ∧ one1Down.phase.ready = true := by decide
theorem witness_ResetWins :
    (at' two3 (resetting true)).pins.rst = true ∧ (at' two3 (resetting true)).pins.cmdValid = true ∧
      ∃ t, step (at' two3 (resetting true)) = .next t :=
  ⟨rfl, rfl, _, rfl⟩
theorem witness_ConfigureEffect :
    (Engine.reset.phase = .unconf ∧ (1 : SelCode) ≠ 0) ∧
      one1.phase = .idle ∧ one1Down.phase = .pdown ∧ (Engine.reset.phase = .unconf ∧ (0 : SelCode) = 0) := by decide
theorem witness_IsReadyPredictsRead :
    let s := at' one1 (offering 0x20000000 false)
    s.eng.phase.ready = true ∧ (∃ a, exec (.isReady 0) s = .next a) ∧ ∃ b, exec (.poll 0) s = .next b :=
  ⟨rfl, ⟨_, rfl⟩, _, rfl⟩
theorem witness_PollStartsRead :
    (at' one1 (offering 0x20000000 false)).eng.phase = .idle ∧ (at' one1 (offering 0x20000000 false)).pins.dout = false := by
  decide
theorem witness_PollWithoutRead :
    (at' .reset (offering 0x20000000 false)).eng.phase = .unconf ∧ (at' one1Down (offering 0x20000000 false)).eng.phase = .pdown ∧
      (at' one1 (offering 0x20000000 true)).eng.phase = .idle ∧ (at' one1 (offering 0x20000000 true)).pins.dout = true := by
  decide
theorem witness_PowerEffects :
    one1.phase = .idle ∧ one1.sck = false ∧ one1Down.phase = .pdown ∧ Engine.reset.phase = .unconf := by decide

/-- RD_HI with ticks left in the level and at its last tick. -/
theorem witness_DataPulseHighTick :
    let s := at' { one1 with phase := .rdHi, sck := true, cfgDly := 1, wait := 1 } (silent true)
    let z := at' { one1 with phase := .rdHi, sck := true, cfgDly := 1, wait := 0 } (silent true)
    s.pins.rst = false ∧ s.eng.phase = .rdHi ∧ 0 < s.eng.wait.toNat ∧ z.eng.phase = .rdHi ∧ ¬0 < z.eng.wait.toNat := by
  decide

/-- RD_LO at data pulses 22 and 23, the boundary of the two clauses. -/
theorem witness_DataPulseLowTick :
    let s := at' { one1 with phase := .rdLo, bitIdx := 22 } (silent true)
    let z := at' { one1 with phase := .rdLo, bitIdx := 23 } (silent true)
    s.pins.rst = false ∧ s.eng.phase = .rdLo ∧ s.eng.bitIdx.val < 23 ∧ z.eng.phase = .rdLo ∧ ¬z.eng.bitIdx.val < 23 := by
  decide

/-- TR_HI; TR_LO before and at the last selector pulse. -/
theorem witness_SelectorPulseTicks :
    let a := at' { two3 with phase := .trHi, sck := true, pulseIdx := 1 } (silent true)
    let b := at' { two3 with phase := .trLo, pulseIdx := 1 } (silent true)
    let c := at' { two3 with phase := .trLo, pulseIdx := 2 } (silent true)
    a.pins.rst = false ∧ a.eng.phase = .trHi ∧ b.eng.phase = .trLo ∧ b.eng.pulseIdx.toNat < b.eng.pending.toNat ∧
      c.eng.phase = .trLo ∧ ¬c.eng.pulseIdx.toNat < c.eng.pending.toNat := by
  decide
theorem witness_WaitingTick :
    (at' one1 (silent true)).pins.rst = false ∧ (at' one1 (silent true)).pins.cmdValid = false ∧
      (at' one1 (silent true)).eng.phase.ready = true := by decide

/-- One channel; two channels after a channel-2 and after a channel-1 read. -/
theorem witness_CommitTick :
    let a := at' { one1 with phase := .commit } (silent true)
    let b := at' { two3 with phase := .commit } (silent true)
    let c := at' { two3 with phase := .commit, lastCh := .ch1, pending := 3 } (silent true)
    a.pins.rst = false ∧ a.eng.phase = .commit ∧ a.eng.cfgNch = .one ∧
      b.eng.phase = .commit ∧ b.eng.cfgNch = .two ∧ b.eng.lastCh = .ch2 ∧
        c.eng.phase = .commit ∧ c.eng.cfgNch = .two ∧ c.eng.lastCh = .ch1 := by
  decide

/-- A reading POLL of one channel with sel = 1, dly = 0, and the 51 ticks after it (L2.7): the hypotheses of the statements
about a whole read. -/
theorem witness_whole_read :
    one1.Inv2 ∧ one1.phase = .idle ∧ (offering 0x20000000 false).rst = false ∧
      (offering 0x20000000 false).cmdValid = true ∧ decode (offering 0x20000000 false).cmdData = .poll 0 ∧
        (offering 0x20000000 false).dout = false ∧ (∀ q ∈ List.replicate 51 (silent true), q.rst = false) ∧
          (offering 0x20000000 false :: List.replicate 51 (silent true)).length = responseTick one1.pending one1.cfgDly := by
  refine ⟨by decide, rfl, rfl, rfl, by decide, rfl, ?_, by decide⟩
  intro q hq
  rw [List.eq_of_mem_replicate hq]
  rfl
theorem witness_PulseTimes :
    0 < 24 + (1 : SelCode).toNat ∧ riseTick 0 0 ≤ 1 ∧ 1 < fallTick 0 0 ∧ fallTick 0 0 ≤ 2 ∧ 2 < riseTick 0 1 ∧
      riseTick 0 (24 + (1 : SelCode).toNat) ≤ 51 := by decide
theorem witness_frame_bits : (List.replicate 24 true).length = 24 ∧ (0 < 24 ∧ 23 < 24) := by decide

/-- A state at the end of a read, whose next tick commits it: a run with one finished read. -/
theorem witness_AlternationLaw :
    let s := at' { two3 with phase := .commit } (silent true)
    s.eng.Inv4 ∧ s.eng.phase ≠ .unconf ∧ s.eng.cfgNch = .two ∧ s.eng.lastCh = .ch2 ∧
      (∀ q ∈ [silent true], q.rst = false) ∧ 0 < (readsOf [silent true] s).length := by decide

/-- A reading POLL of two channels with sel = 3, dly = 0, when the read before has just been committed: two reads finish, so
the law's `k` may be 1. -/
theorem witness_AlternationLaw_second :
    let s := at' { two3 with phase := .commit } (silent true)
    let ps := silent true :: offering 0x20000000 false :: List.replicate 55 (silent true)
    s.eng.Inv4 ∧ s.eng.phase ≠ .unconf ∧ s.eng.cfgNch = .two ∧ s.eng.lastCh = .ch2 ∧
      (∀ q ∈ ps, q.rst = false) ∧ 1 < (readsOf ps s).length := by
  decide +kernel
theorem witness_SingleChannelLaw :
    let s := at' { one1 with phase := .commit } (silent true)
    s.eng.Inv3 ∧ s.eng.phase ≠ .unconf ∧ s.eng.cfgNch = .one ∧ (∀ q ∈ [silent true], q.rst = false) ∧
      (Channel.ch1, (1 : SelCode)) ∈ readsOf [silent true] s := by decide

/-- A state in a read with one response owed, and its step. -/
def midRead : State :=
  { at' { two3 with phase := .trLo, pulseIdx := 2 } (silent true) with
    chip := { Chip.reset with edges := 26, sel := 3, latched := true }
    host := { host17 with owed := [.ingest] } }

theorem witness_invariants_kept :
    midRead.eng.StrongInv ∧ midRead.ResponsesOwed ∧ midRead.StrobeDown ∧ midRead.EdgesInStep ∧ ∃ t, step midRead = .next t :=
  ⟨by decide, by decide, by decide, by decide, _, rfl⟩
theorem witness_ChipInStep :
    midRead.ChipInStep ∧ midRead.chip.latched = true ∧ midRead.chip.inContract = true ∧ midRead.eng.phase.timed = true := by
  decide
theorem witness_StoreShapeKept : midRead.host.wf := by
  refine ⟨fun st h => ?_, by decide, by decide⟩
  cases h
  decide
theorem witness_fields_written :
    let s := at' .reset (offering 0x10110000 true)
    s.pins.rst = false ∧ s.accepted = true ∧ ∃ t, step s = .next t :=
  ⟨rfl, by decide, _, rfl⟩
/-- The COMMIT tick of that read. -/
def commitTime : State := { midRead with eng := { two3 with phase := .commit } }
theorem witness_AttributionMatchesConversion :
    commitTime.ChipInStep ∧ commitTime.pins.rst = false ∧ commitTime.eng.phase = .commit ∧
      commitTime.eng.cfgNch = .two ∧ commitTime.chip.inContract = true ∧ commitTime.chip.latched = true ∧
        ∃ t, step commitTime = .next t :=
  ⟨by decide, rfl, rfl, rfl, rfl, rfl, _, rfl⟩

/-- A powered-down block with a command on its port; the chip's line has been high for 9 ticks before this one. -/
def downWith (w : Word) : State :=
  { at' one1Down (offering w true) with chip := { Chip.reset with edges := 1, levelTicks := 9 } }
/-- IDLE with a POLL that reads on the port. -/
def readStarts : State := at' one1 (offering 0x20000000 false)
/-- A tick of a read with no level left to wait for. -/
def levelEnds (e : Engine) (edges : Nat) (p : Pins) : State :=
  { at' e p with chip := { Chip.reset with edges := edges } }

/-- The clauses of ChipSelectorEvents: reset, POWER_UP from PDOWN, COMMIT in and out of the contract, another tick. -/
theorem witness_ChipSelectorEvents :
    let out := { commitTime with chip := { commitTime.chip with inContract := false } }
    (at' one1 (resetting false)).ChipInStep ∧ (∃ t, step (at' one1 (resetting false)) = .next t) ∧
      (downWith 0x40000000).ChipInStep ∧
        (∃ t, step (downWith 0x40000000) = .next t ∧ (downWith 0x40000000).eng.phase = .pdown ∧ t.eng.phase ≠ .pdown) ∧
      (commitTime.ChipInStep ∧ commitTime.chip.inContract = true) ∧
      (out.ChipInStep ∧ out.chip.inContract = false ∧ out.eng.phase = .commit ∧ ∃ t, step out = .next t) ∧
      midRead.eng.phase ≠ .commit :=
  ⟨by decide, ⟨_, rfl⟩, by decide, ⟨_, rfl, rfl, by decide⟩, by decide, ⟨by decide, rfl, rfl, _, rfl⟩, by decide⟩

/-- The clauses of ChipContractEvents: a reset in a read, the end of PDOWN, the end of a high level of a data and of a
selector pulse, the end of a low level, a rise out of IDLE, a tick without an edge. -/
theorem witness_ChipContractEvents :
    let cut := { midRead with pins := resetting false }
    let hi := levelEnds { two3 with phase := .rdHi, sck := true } 1 (silent true)
    let sel := levelEnds { two3 with phase := .trHi, sck := true, pulseIdx := 1 } 25 (silent true)
    let lo := levelEnds { two3 with phase := .rdLo } 1 (silent true)
    (cut.ChipInStep ∧ cut.eng.phase.ready = false ∧ ∃ t, step cut = .next t) ∧
      (downWith 0x40000000).ChipInStep ∧
      (hi.ChipInStep ∧ hi.eng.wait = 0 ∧ ∃ t, step hi = .next t) ∧
      (sel.ChipInStep ∧ sel.eng.wait = 0 ∧ ∃ t, step sel = .next t) ∧
      (lo.ChipInStep ∧ ∃ t, step lo = .next t ∧ t.eng.sck = true) ∧
      (readStarts.ChipInStep ∧ ∃ t, step readStarts = .next t ∧ t.eng.sck = true) ∧
      (∃ t, step midRead = .next t ∧ t.eng.sck = midRead.eng.sck) :=
  ⟨⟨by decide, rfl, _, rfl⟩, by decide, ⟨by decide, rfl, _, rfl⟩, ⟨by decide, rfl, _, rfl⟩, ⟨by decide, _, rfl, rfl⟩,
    ⟨by decide, _, rfl, rfl⟩, ⟨_, rfl, rfl⟩⟩

/-- R36, R193: POWER_UP from PDOWN leaves the selector unlatched. -/
theorem test_powerUp_unlatches :
    ∃ t, step { downWith 0x40000000 with chip := { (downWith 0x40000000).chip with sel := 1, latched := true } } = .next t ∧
      t.chip.latched = false ∧ t.chip.levelTicks = 0 := ⟨_, rfl, rfl, rfl⟩
theorem witness_RingKeepsNewest : (Ring.empty 3).wf 3 := by decide
theorem witness_IngestFollowsStatus :
    host17.store = some store17 ∧ store17.ring? Channel.ch1.toNat = some { slots := [5, -16, 16, 0], fill := 3 } := by decide
theorem witness_AverageOfNewestSlots :
    store17.ring? 1 = some { slots := [5, -16, 16, 0], fill := 3 } ∧ 1 ≤ min 20 store17.cap ∧ store17.cap < 20 := by decide
theorem witness_StoreRefusals : store17.wf ∧ store17.nch.toNat < 2 ∧ (1 ≤ 1 ∧ 1 ≤ store17.nch.toNat) := by decide
theorem witness_CalibrationLaws : store17.average 1 3 = .ok (5 / 3) ∧ (1 / 2 : Rat) ≠ 0 :=
  ⟨test_average_three, by norm_num⟩

/-- TARE of two on one channel: begun, polling with one ingest made, and ended with two. -/
theorem witness_TareLoopAndEnd :
    host17.store = some store17 ∧ 1 < 2 * store17.nch.toNat ∧ 2 * store17.nch.toNat ≤ 2 ∧
      store17.ring? Channel.ch1.toNat = some { slots := [5, -16, 16, 0], fill := 3 } ∧ 1 ≤ 2 := by decide
theorem witness_ConstructIssuesConfigure :
    1 ≤ 20 ∧ ((64 : Nat) = 64 ∧ (3 : SelCode) = 3) ∧ (16 ≠ 128 ∧ 16 ≠ 64 ∧ 16 ≠ 32) := by decide
theorem witness_SettersWriteOneSlot : 3 ≠ 1 ∧ 3 ≠ 2 ∧ 0 ≠ 1 ∧ 0 ≠ 2 := by decide
theorem witness_TruncationTowardZero : (0 : Rat) ≤ 203 / 2 ∧ (-203 / 2 : Rat) ≤ 0 := by norm_num
theorem witness_AssemblerConfigure : (255 ≤ 255 ∧ 1 ≤ 1 ∧ 3 ≤ 3) ∧ 255 < 256 ∧ 3 < 4 := by decide

end Sys2Proof.Tests
end

section
/-!
PROOFS. The state family: what every step keeps of the engine (R33), of the responses owed (R22), and of the chip (R35, R174);
and what one step does to the command port, the configuration, the sequencer's fields and the chip's selector. One inversion
lemma says what a step can do (`step_effect`, by the cases of `State.TickEffect`, `Engine.CommandEffect` and
`Engine.ReadTick`); each invariant is then a case analysis of it.
-/
namespace Sys2Proof.Machine

/-! ## The block's tick -/

/-- Every command is the block's tick with one engine function offered to it (R20, R21). -/
theorem exec_eq_whenReady (i : Instr) (s : State) : ∃ run, exec i s = s.whenReady run := by
  cases i <;> exact ⟨_, rfl⟩

/-- In a read phase a command's tick is the block's own (R20, R21, R127). -/
theorem exec_of_busy (i : Instr) {s : State} (h : s.eng.phase.ready = false) :
    exec i s = .next (s.withEngine (s.eng.advance s.pins.dout)) := by
  obtain ⟨run, hrun⟩ := exec_eq_whenReady i s
  rw [hrun, whenReady_of_busy run h]

/-- Everything an accepted command of a mnemonic can do to the engine: `Engine.ReadyTick` with the command named. -/
inductive Engine.CommandEffect (e : Engine) : Mnemonic → Engine → Prop
  | answer (m : Mnemonic) (st : Status) (d : Word) : CommandEffect e m (e.respond st d)
  | configure (n : Byte) {sel : SelCode} (d : Byte) : e.phase = .unconf → sel ≠ 0 →
      CommandEffect e .configure (e.configured n sel d)
  | readStart : e.phase = .idle → CommandEffect e .poll e.readStart
  | powerDown : e.phase = .idle →
      CommandEffect e .powerDown ({ e with sck := true, phase := .pdown }.respond statusOk 0)
  | powerUp : e.phase = .pdown →
      CommandEffect e .powerUp ({ e with sck := false, phase := .idle }.respond statusOk 0)

/-- What the engine function of POLL does where a command is accepted (R87 to R89). -/
theorem Engine.poll_effect (b : Bool) {e : Engine} (h : e.phase.ready = true) : e.CommandEffect .poll (e.poll b) := by
  rcases e.poll_cases b with ⟨_, he⟩ | ⟨_, _, he⟩ | ⟨hu, hp, _, he⟩ <;> rw [he]
  · exact .answer ..
  · exact .answer ..
  · exact .readStart (by have := (Phase.ready_iff _).1 h; tauto)

/-- What the engine function of POWER_DOWN does where a command is accepted (R123, R126). -/
theorem Engine.powerDown_effect {e : Engine} (h : e.phase.ready = true) : e.CommandEffect .powerDown e.powerDown := by
  rcases e.powerDown_cases with ⟨_, he⟩ | ⟨_, he⟩ | ⟨hu, hp, he⟩ <;> rw [he]
  · exact .answer ..
  · exact .answer ..
  · exact .powerDown (by have := (Phase.ready_iff _).1 h; tauto)

/-- What the engine function of POWER_UP does where a command is accepted (R124, R126). -/
theorem Engine.powerUp_effect {e : Engine} (h : e.phase.ready = true) : e.CommandEffect .powerUp e.powerUp := by
  rcases e.powerUp_cases with ⟨_, he⟩ | ⟨_, he⟩ | ⟨hu, hp, he⟩ <;> rw [he]
  · exact .answer ..
  · exact .answer ..
  · exact .powerUp (by have := (Phase.ready_iff _).1 h; tauto)

/-- An accepted command changes the engine alone, by the effect of its mnemonic. -/
theorem exec_effect (i : Instr) {s : State} (h : s.eng.phase.ready = true) :
    ∃ e, exec i s = .next (s.withEngine e) ∧ s.eng.CommandEffect i.mnemonic e := by
  cases i with
  | configure n hi sel d lo =>
    refine ⟨_, whenReady_of_ready _ h, ?_⟩
    split
    · exact .answer ..
    · split
      · exact .answer ..
      · exact .configure n d (not_not.1 ‹_›) ‹_›
  | poll x => exact ⟨_, whenReady_of_ready _ h, Engine.poll_effect _ h⟩
  | powerDown x => exact ⟨_, whenReady_of_ready _ h, Engine.powerDown_effect h⟩
  | powerUp x => exact ⟨_, whenReady_of_ready _ h, Engine.powerUp_effect h⟩
  | isReady x => exact ⟨_, whenReady_of_ready _ h, .answer ..⟩
  | readStatus x => exact ⟨_, whenReady_of_ready _ h, .answer ..⟩
  | reservedZero x => exact ⟨_, whenReady_of_ready _ h, .answer ..⟩
  | reservedSeven x => exact ⟨_, whenReady_of_ready _ h, .answer ..⟩
  | reservedHigh op x => exact ⟨_, whenReady_of_ready _ h, .answer ..⟩

/-- Everything a tick can do to the engine, by what the ports show (R105): `engineTick_cases` with acceptance told. -/
inductive State.TickEffect (s : State) : Engine → Prop
  | reset : s.pins.rst = true → TickEffect s .reset
  | wait : s.pins.rst = false → s.eng.phase.ready = true → s.accepted = false → TickEffect s s.eng.quiet
  | command {e : Engine} : s.pins.rst = false → s.eng.phase.ready = true → s.accepted = true →
      s.eng.CommandEffect (decode s.pins.cmdData).mnemonic e → TickEffect s e
  | read : s.pins.rst = false → s.eng.phase.ready = false → TickEffect s (s.eng.advance s.pins.dout)

/-- The block's tick never stops, and it changes the engine alone. -/
theorem engineTick_effect (s : State) : ∃ e, engineTick s = .next (s.withEngine e) ∧ s.TickEffect e := by
  unfold engineTick
  cases hr : s.pins.rst with
  | true => exact ⟨_, rfl, .reset hr⟩
  | false =>
    cases hp : s.eng.phase.ready with
    | false => exact ⟨_, by simp [exec_of_busy _ hp], .read hr hp⟩
    | true =>
      cases hv : s.pins.cmdValid with
      | false =>
        exact ⟨_, by simp [Engine.advance_of_ready _ hp], .wait hr hp (by simp [State.accepted, hv])⟩
      | true =>
        obtain ⟨e, he, heff⟩ := exec_effect (decode s.pins.cmdData) hp
        exact ⟨e, by simpa using he, .command hr hp ((accepted_iff s).2 ⟨hv, hp, hr⟩) heff⟩

/-- A step is a tick of the engine, a move of the host, and the chip's view of that tick. -/
theorem step_effect {s t : State} (h : step s = .next t) :
    s.TickEffect t.eng ∧ t.chip = s.chip.observe (s.tick + 1) s.pins.rst s.eng t.eng ∧ t.tick = s.tick + 1 := by
  obtain ⟨u, hu, hplat⟩ := step_eq_next h
  obtain ⟨e, he, heff⟩ := engineTick_effect s
  rw [he] at hu
  cases hu
  obtain ⟨heng, hchip, htick⟩ := platformTick_eq_next hplat
  rw [heng, hchip, htick]
  exact ⟨heff, rfl, rfl⟩

/-! ## The host's move -/

/-- PUSH touches the host's store alone (R135). -/
theorem HostAgent.push_frame {ch : Channel} {d : Word} {h : HostAgent} {r : HostAgent × Option Channel}
    (hr : h.push ch d = .next r) : r.1.owed = h.owed ∧ r.1.offering = h.offering := by
  unfold HostAgent.push at hr
  split at hr
  · cases hr
  · split at hr <;> cases hr
    exact ⟨rfl, rfl⟩

/-- Ingesting a response touches the host's store alone (R136). -/
theorem HostAgent.ingest_frame {st : Status} {d : Word} {h : HostAgent} {r : HostAgent × Option Channel}
    (hr : h.ingest st d = .next r) : r.1.owed = h.owed ∧ r.1.offering = h.offering := by
  unfold HostAgent.ingest at hr
  split at hr
  · cases hr
    exact ⟨rfl, rfl⟩
  · split at hr
    · exact HostAgent.push_frame hr
    · split at hr
      · exact HostAgent.push_frame hr
      · split at hr <;> cases hr

/-- Using a captured response changes neither what is owed nor what is offered. -/
theorem HostAgent.answer_frame {st : Status} {d : Word} {h h' : HostAgent} {k : Cont}
    (ha : h.answer st d k = .next h') : h'.owed = h.owed ∧ h'.offering = h.offering := by
  cases k with
  | discard => cases ha; exact ⟨rfl, rfl⟩
  | deliver => cases ha; exact ⟨rfl, rfl⟩
  | construct cap nch =>
    simp only [HostAgent.answer] at ha
    split at ha <;> cases ha <;> exact ⟨rfl, rfl⟩
  | ingest =>
    obtain ⟨r, hr, hk⟩ := andThen_eq_next ha
    cases hk
    exact HostAgent.ingest_frame hr
  | tare ch n got =>
    obtain ⟨r, hr, hk⟩ := andThen_eq_next ha
    cases hk
    exact HostAgent.ingest_frame hr

/-- A response shown is taken for the oldest accepted command (R22, R53). -/
theorem HostAgent.capture_frame {e : Engine} {h h' : HostAgent} (hc : h.capture e = .next h') :
    h'.owed = (if e.rspValid then h.owed.tail else h.owed) ∧ h'.offering = h.offering := by
  unfold HostAgent.capture at hc
  split at hc
  · rw [if_pos ‹_›]
    split at hc
    · cases hc
      simp [*]
    · simpa [*] using HostAgent.answer_frame hc
  · cases hc
    simp [*]

/-- What the host is owed once it has captured the response of this tick: nothing after a reset, and the command accepted
at this tick from now on (R20, R22, R183). -/
def State.owedAfter (s : State) : List Cont :=
  if s.pins.rst then []
  else (if s.eng.rspValid then s.host.owed.tail else s.host.owed) ++ (if s.accepted then [s.host.offering] else [])

/-- Settling a tick's response and acceptance leaves what is offered. -/
theorem hostSettle_frame {s : State} {h : HostAgent} (hs : hostSettle s = .next h) :
    h.owed = s.owedAfter ∧ h.offering = s.host.offering := by
  obtain ⟨a, ha, hk⟩ := andThen_eq_next hs
  obtain ⟨howed, hoff⟩ := HostAgent.capture_frame ha
  cases hk
  unfold State.owedAfter
  split
  · exact ⟨rfl, hoff⟩
  · split <;> simp [howed, hoff]

/-- A call that computes a value leaves what is owed. -/
theorem HostAgent.compute_owed {f : Store → Except Refusal Rat} {h : HostAgent} {r : HostAgent × Option Word}
    (hr : h.compute f = .next r) : r.1.owed = h.owed := by
  unfold HostAgent.compute at hr
  split at hr
  · cases hr
  · obtain ⟨v, _, hk⟩ := andThen_eq_next hr
    cases hk
    rfl

/-- A call that changes the store leaves what is owed. -/
theorem HostAgent.change_owed {f : Store → Except Refusal Store} {h : HostAgent} {r : HostAgent × Option Word}
    (hr : h.change f = .next r) : r.1.owed = h.owed := by
  unfold HostAgent.change at hr
  split at hr
  · cases hr
  · obtain ⟨v, _, hk⟩ := andThen_eq_next hr
    cases hk
    rfl

/-- Offering a word makes nothing owed: it is owed once it is accepted (R20). -/
theorem HostAgent.offer_owed {w : Word} {k : Cont} {h : HostAgent} {r : HostAgent × Option Word}
    (hr : h.offer w k = .next r) : r.1.owed = h.owed := by
  cases hr
  rfl

/-- A round of TARE leaves what is owed. -/
theorem HostAgent.tareLoop_owed {ch n got : Nat} {h : HostAgent} {r : HostAgent × Option Word}
    (hr : h.tareLoop ch n got = .next r) : r.1.owed = h.owed := by
  unfold HostAgent.tareLoop at hr
  split at hr
  · cases hr
  · split at hr
    · exact HostAgent.offer_owed hr
    · exact HostAgent.change_owed hr

/-- Beginning TARE leaves what is owed. -/
theorem HostAgent.tare_owed {ch n : Nat} {h : HostAgent} {r : HostAgent × Option Word}
    (hr : h.tare ch n = .next r) : r.1.owed = h.owed := by
  unfold HostAgent.tare at hr
  split at hr
  · cases hr
  · split at hr
    · cases hr
    · split at hr
      · cases hr
      · exact HostAgent.tareLoop_owed hr

/-- Issuing construct's CONFIGURE leaves what is owed. -/
theorem HostAgent.construct_owed {a : ConstructArgs} {h : HostAgent} {r : HostAgent × Option Word}
    (hr : h.construct a = .next r) : r.1.owed = h.owed := by
  unfold HostAgent.construct at hr
  split at hr
  · cases hr
  · split at hr
    · exact HostAgent.offer_owed hr
    · cases hr

/-- Beginning a call accepts nothing and captures nothing. -/
theorem HostAgent.begin_owed {c : HostCall} {h : HostAgent} {r : HostAgent × Option Word}
    (hr : h.begin c = .next r) : r.1.owed = h.owed := by
  cases c with
  | command w => exact HostAgent.offer_owed hr
  | construct a => exact HostAgent.construct_owed hr
  | pollAndIngest => exact HostAgent.offer_owed hr
  | average ch n => exact HostAgent.compute_owed hr
  | tareCorrected ch n => exact HostAgent.compute_owed hr
  | calibrated ch n => exact HostAgent.compute_owed hr
  | tare ch n => exact HostAgent.tare_owed hr
  | tareLoop ch n got => exact HostAgent.tareLoop_owed hr
  | setScale ch f => exact HostAgent.change_owed hr
  | setOffset ch o => exact HostAgent.change_owed hr
  | powerDown => exact HostAgent.offer_owed hr
  | powerUp => exact HostAgent.offer_owed hr
  | pause ticks => cases hr; rfl

/-- The host's next move accepts nothing and captures nothing. -/
theorem HostAgent.proceed_owed {h : HostAgent} {r : HostAgent × Option Word} (hr : h.proceed = .next r) :
    r.1.owed = h.owed := by
  unfold HostAgent.proceed at hr
  split at hr
  · cases hr
    rfl
  · split at hr
    · cases hr
      rfl
    · split at hr
      · simpa using HostAgent.begin_owed hr
      · cases hr
        rfl

/-- What a step leaves owed. -/
theorem step_owed {s t : State} (h : step s = .next t) : t.host.owed = s.owedAfter := by
  obtain ⟨u, _, hplat⟩ := step_eq_next h
  obtain ⟨v, hhost, hv⟩ := andThen_eq_next hplat
  obtain ⟨a, hsettle, hk⟩ := andThen_eq_next hhost
  obtain ⟨howed, _⟩ := hostSettle_frame hsettle
  cases hv
  split at hk
  · cases hk
    simpa using howed
  · obtain ⟨r, hr, hw⟩ := andThen_eq_next hk
    cases hw
    simpa [howed] using HostAgent.proceed_owed hr

/-- A word offered and not accepted stays offered, for the same purpose (R20). -/
theorem step_holds_offer {s t : State} (h : step s = .next t) (hv : s.pins.cmdValid = true)
    (ha : s.accepted = false) :
    t.pins.cmdValid = true ∧ t.pins.cmdData = s.pins.cmdData ∧ t.host.offering = s.host.offering := by
  obtain ⟨u, hu, hplat⟩ := step_eq_next h
  obtain ⟨e, he, _⟩ := engineTick_effect s
  obtain ⟨v, hhost, hk⟩ := andThen_eq_next hplat
  obtain ⟨a, hsettle, hw⟩ := andThen_eq_next hhost
  obtain ⟨_, hoff⟩ := hostSettle_frame hsettle
  rw [he] at hu
  cases hu
  cases hk
  rw [if_pos (by simp [hv, ha])] at hw
  cases hw
  simp [hv, hoff]

/-! ## The tick and the command port -/

/-- Settles O7: `engineTick` with its first two tests decided. -/
theorem stepRunsDecodedCommand : Obligations.StepRunsDecodedCommand := by
  have hstep : ∀ s : State, s.pins.rst = false → s.pins.cmdValid = true →
      step s = andThen (exec (decode s.pins.cmdData) s) (platformTick s) := by
    intro s hrst hv
    simp [step, engineTick, hrst, hv]
  refine ⟨hstep, fun s w i hi => ?_⟩
  have hdec : decode (BitVec.ofNat 32 w) = i := by
    unfold decodeTableWord decodeBits at hi
    split_ifs at hi
    · exact Option.some.inj hi
  rw [hstep _ rfl rfl, ← hdec]
  rfl

/-- Settles O8: an offer that is not accepted is held. -/
theorem commandHeldWhileReading : Obligations.CommandHeldWhileReading := by
  intro i s hbusy
  refine ⟨exec_of_busy i hbusy, fun hrst hv t ht => ⟨?_, ?_⟩⟩
  · obtain ⟨htick, _, _⟩ := step_effect ht
    generalize t.eng = e at htick ⊢
    cases htick with
    | reset h => simp [hrst] at h
    | wait _ hr | command _ hr => simp [hbusy] at hr
    | read => rfl
  · exact step_holds_offer ht hv (by simp [State.accepted, Engine.cmdReady, hbusy])

/-- Settles O13: at a reset tick nothing is accepted, and the host abandons what it is owed. -/
theorem resetKeepsOfferDropsOwed : Obligations.ResetKeepsOfferDropsOwed := by
  intro s t hrst ht
  refine ⟨?_, fun hv => step_holds_offer ht hv (by simp [State.accepted, hrst])⟩
  rw [step_owed ht, State.owedAfter, if_pos hrst]

/-! ## What a tick does to the engine -/

/-- Everything a tick of a read can do to the engine (R108 to R111, R114): `Engine.advance_cases` as named cases. -/
inductive Engine.ReadTick (e : Engine) : Engine → Prop
  | wait : e.phase.timed = true → 0 < e.wait → ReadTick e e.waitTick
  | sampleBit (b : Bool) : e.phase = .rdHi → e.wait = 0 →
      ReadTick e ({ e with acc := shiftIn e.acc b }.level .rdLo false)
  | nextBit : e.phase = .rdLo → e.wait = 0 → e.bitIdx < 23 →
      ReadTick e ({ e with bitIdx := e.bitIdx + 1 }.level .rdHi true)
  | firstSelector : e.phase = .rdLo → e.wait = 0 → ¬e.bitIdx < 23 →
      ReadTick e ({ e with pulseIdx := 1 }.level .trHi true)
  | selectorFalls : e.phase = .trHi → e.wait = 0 → ReadTick e (e.level .trLo false)
  | nextSelector : e.phase = .trLo → e.wait = 0 → e.pulseIdx < e.pending →
      ReadTick e ({ e with pulseIdx := e.pulseIdx + 1 }.level .trHi true)
  | toCommit : e.phase = .trLo → e.wait = 0 → ¬e.pulseIdx < e.pending →
      ReadTick e { e with phase := .commit }.quiet
  | finish : e.phase = .commit → ReadTick e e.finish

/-- A phase of a read other than COMMIT times a level (R21, R106). -/
theorem Phase.timed_of_busy {p : Phase} (h : p.ready = false) (hc : p ≠ .commit) : p.timed = true := by
  cases p <;> simp_all [Phase.ready, Phase.timed]

/-- A phase that times a level accepts no command and is not COMMIT (R21, R106). -/
theorem Phase.busy_of_timed {p : Phase} (h : p.timed = true) : p.ready = false ∧ p ≠ .commit := by
  cases p <;> simp_all [Phase.ready, Phase.timed]

/-- A phase that accepts commands is not COMMIT (R21). -/
theorem Phase.ne_commit_of_ready {p : Phase} (h : p.ready = true) : p ≠ .commit := by
  rintro rfl
  cases h

/-- A phase that accepts commands times no level (R21, R106). -/
theorem Phase.timed_of_ready {p : Phase} (h : p.ready = true) : p.timed = false := by
  rcases (Phase.ready_iff _).1 h with rfl | rfl | rfl <;> rfl

/-- The block's own tick in a read phase is one of those. -/
theorem Engine.advance_readTick (b : Bool) {e : Engine} (h : e.phase.ready = false) : e.ReadTick (e.advance b) := by
  have zero : ¬0 < e.wait → e.wait = 0 := fun hw => by bv_omega
  rcases e.advance_cases b h with ⟨hp, hw, he⟩ | ⟨hp, hw, he⟩ | ⟨hp, hw, hb, he⟩ | ⟨hp, hw, hb, he⟩ | ⟨hp, hw, he⟩ |
    ⟨hp, hw, hi, he⟩ | ⟨hp, hw, hi, he⟩ | ⟨hp, he⟩ <;> rw [he]
  · exact .wait (Phase.timed_of_busy h hp) hw
  · exact .sampleBit b hp (zero hw)
  · exact .nextBit hp (zero hw) hb
  · exact .firstSelector hp (zero hw) hb
  · exact .selectorFalls hp (zero hw)
  · exact .nextSelector hp (zero hw) hi
  · exact .toCommit hp (zero hw) hi
  · exact .finish hp

/-! ### What it leaves of the configuration -/

/-- The configuration and the channel sequencer's two fields stay, and so does whether there is a configuration. -/
structure Engine.SameSetup (e e' : Engine) : Prop where
  cfgNch : e'.cfgNch = e.cfgNch
  cfgSel : e'.cfgSel = e.cfgSel
  cfgDly : e'.cfgDly = e.cfgDly
  pending : e'.pending = e.pending
  lastCh : e'.lastCh = e.lastCh
  unconf : e'.phase = .unconf ↔ e.phase = .unconf

/-- An accepted command writes none of those fields unless it is a CONFIGURE in UNCONF (R28, R29). -/
theorem Engine.CommandEffect.sameSetup {e e' : Engine} {m : Mnemonic} (h : e.CommandEffect m e') :
    e.SameSetup e' ∨ (m = .configure ∧ e.phase = .unconf ∧ ∃ n sel d, sel ≠ 0 ∧ e' = e.configured n sel d) := by
  cases h with
  | answer => exact .inl ⟨rfl, rfl, rfl, rfl, rfl, .rfl⟩
  | configure n d hp hs => exact .inr ⟨rfl, hp, n, _, d, hs, rfl⟩
  | readStart hp => exact .inl ⟨rfl, rfl, rfl, rfl, rfl, by simp [hp]⟩
  | powerDown hp => exact .inl ⟨rfl, rfl, rfl, rfl, rfl, by simp [hp]⟩
  | powerUp hp => exact .inl ⟨rfl, rfl, rfl, rfl, rfl, by simp [hp]⟩

/-- A tick of a read writes none of those fields before COMMIT (R29). -/
theorem Engine.ReadTick.sameSetup {e e' : Engine} (h : e.ReadTick e') :
    (e.phase ≠ .commit ∧ e.SameSetup e') ∨ (e.phase = .commit ∧ e' = e.finish) := by
  cases h with
  | wait ht => exact .inl ⟨(Phase.busy_of_timed ht).2, rfl, rfl, rfl, rfl, rfl, .rfl⟩
  | sampleBit b hp => exact .inl ⟨by simp [hp], rfl, rfl, rfl, rfl, rfl, by simp [hp]⟩
  | nextBit hp => exact .inl ⟨by simp [hp], rfl, rfl, rfl, rfl, rfl, by simp [hp]⟩
  | firstSelector hp => exact .inl ⟨by simp [hp], rfl, rfl, rfl, rfl, rfl, by simp [hp]⟩
  | selectorFalls hp => exact .inl ⟨by simp [hp], rfl, rfl, rfl, rfl, rfl, by simp [hp]⟩
  | nextSelector hp => exact .inl ⟨by simp [hp], rfl, rfl, rfl, rfl, rfl, by simp [hp]⟩
  | toCommit hp => exact .inl ⟨by simp [hp], rfl, rfl, rfl, rfl, rfl, by simp [hp]⟩
  | finish hp => exact .inr ⟨hp, rfl⟩

/-- Without a reset the configuration and the sequencer's two fields stay, or the tick is COMMIT's, or it accepts a
CONFIGURE in UNCONF (R28, R29). -/
theorem State.TickEffect.sameSetup {s : State} {e : Engine} (h : s.TickEffect e) (hrst : s.pins.rst = false) :
    (s.eng.phase ≠ .commit ∧ s.eng.SameSetup e) ∨ (s.eng.phase = .commit ∧ e = s.eng.finish) ∨
      (s.eng.phase = .unconf ∧ s.accepted = true ∧ (decode s.pins.cmdData).mnemonic = .configure ∧
        ∃ n sel d, sel ≠ 0 ∧ e = s.eng.configured n sel d) := by
  cases h with
  | reset h => simp [hrst] at h
  | wait _ hr => exact .inl ⟨Phase.ne_commit_of_ready hr, rfl, rfl, rfl, rfl, rfl, .rfl⟩
  | command _ hr ha he =>
    rcases he.sameSetup with hs | ⟨hm, hp, hcfg⟩
    · exact .inl ⟨Phase.ne_commit_of_ready hr, hs⟩
    · exact .inr (.inr ⟨hp, ha, hm, hcfg⟩)
  | read _ hp => exact (Engine.advance_readTick _ hp).sameSetup.imp_right .inl

/-- Settles O41: a tick of COMMIT leaves the configuration too, so what is left is an accepted CONFIGURE. -/
theorem configurationWrittenOnlyByConfigure : Obligations.ConfigurationWrittenOnlyByConfigure := by
  intro s t ht hrst
  obtain ⟨htick, _, _⟩ := step_effect ht
  rcases htick.sameSetup hrst with ⟨_, hs⟩ | ⟨_, he⟩ | ⟨hp, ha, hm, n, sel, d, _, he⟩
  · exact .inl ⟨hs.cfgNch, hs.cfgSel, hs.cfgDly⟩
  · exact .inl (by simp [he])
  · exact .inr ⟨hp, ha, hm, by simp [he]⟩

/-- Settles O42: the three cases of `State.TickEffect.sameSetup`. -/
theorem sequencerFieldsWrittenOnlyByCommit : Obligations.SequencerFieldsWrittenOnlyByCommit := by
  intro s t ht hrst
  obtain ⟨htick, _, _⟩ := step_effect ht
  rcases htick.sameSetup hrst with ⟨_, hs⟩ | ⟨hp, _⟩ | ⟨hp, ha, hm, _⟩
  · exact .inl ⟨hs.pending, hs.lastCh⟩
  · exact .inr (.inl hp)
  · exact .inr (.inr ⟨hp, ha, hm⟩)

/-! ## The engine's invariants (R33) -/

/-- INV1 to INV4: what the configuration and the sequencer's two fields hold. -/
abbrev Engine.SetupInv (e : Engine) : Prop := e.Inv1 ∧ e.Inv2 ∧ e.Inv3 ∧ e.Inv4

/-- INV5 to INV7 and the counters at rest: what the clock line and the counters hold. -/
abbrev Engine.LineInv (e : Engine) : Prop := e.Inv5 ∧ e.Inv6 ∧ e.Inv7 ∧ e.AtRest

/-- The inductive invariant in two parts, which no tick mixes but by INV2. -/
theorem Engine.strongInv_iff (e : Engine) : e.StrongInv ↔ e.SetupInv ∧ e.LineInv := by
  simp only [Engine.StrongInv, Engine.Inv, and_assoc]

/-- INV1 to INV4 speak of the configuration and the sequencer's two fields only. -/
theorem Engine.SetupInv.of_sameSetup {e e' : Engine} (h : e.SetupInv) (hs : e.SameSetup e') : e'.SetupInv := by
  simpa [Engine.SetupInv, Engine.Inv1, Engine.Inv2, Engine.Inv3, Engine.Inv4, hs.cfgNch, hs.cfgSel, hs.pending, hs.lastCh,
    hs.unconf] using h

/-- CONFIGURE establishes INV1 to INV4 (R77). -/
theorem Engine.configured_setupInv (n : Byte) {sel : SelCode} (d : Byte) (e : Engine) (hs : sel ≠ 0) :
    (e.configured n sel d).SetupInv := by
  cases hn : chanCount n <;>
    simpa [Engine.SetupInv, Engine.Inv1, Engine.Inv2, Engine.Inv3, Engine.Inv4, initialPending, hn] using hs

/-- COMMIT keeps INV1 to INV4: with two channels the code it leaves pending is the one of the other channel (R97). -/
theorem Engine.SetupInv.finish {e : Engine} (h : e.SetupInv) (hp : e.phase = .commit) : e.finish.SetupInv := by
  obtain ⟨_, h2, h3, h4⟩ := h
  cases hn : e.cfgNch <;> cases hl : e.lastCh <;>
    simp_all [Engine.SetupInv, Engine.Inv1, Engine.Inv2, Engine.Inv3, Engine.Inv4, Engine.nextPending, Engine.attribution,
      Channel.other]

/-- In a phase that accepts commands the line invariants ask for counters at rest and a line high in PDOWN only. -/
theorem Engine.lineInv_of_ready {e : Engine} (hr : e.phase.ready = true) (hsck : e.sck = true ↔ e.phase = .pdown)
    (hw : e.wait = 0) (hb : e.bitIdx = 0) (hi : e.pulseIdx = 0) : e.LineInv := by
  rcases (Phase.ready_iff _).1 hr with hp | hp | hp <;>
    simp_all [Engine.LineInv, Engine.Inv5, Engine.Inv6, Engine.Inv7, Engine.AtRest, BitVec.le_def]

/-- While a level is timed they ask for a line high in RD_HI and TR_HI only, a `wait` within the delay, and in a selector
pulse an index from 1 to `pending`. -/
theorem Engine.lineInv_of_timed {e : Engine} (ht : e.phase.timed = true)
    (hsck : e.sck = true ↔ e.phase = .rdHi ∨ e.phase = .trHi) (hw : e.wait ≤ e.cfgDly) (hi : e.Inv7) : e.LineInv := by
  obtain ⟨hr, hc⟩ := Phase.busy_of_timed ht
  refine ⟨?_, hw, hi, ?_⟩
  · cases hp : e.phase <;> simp_all [Engine.Inv5, Phase.ready]
  · simp [Engine.AtRest, hr, hc]

/-- A command that is accepted keeps the line invariants. -/
theorem Engine.CommandEffect.lineInv {e e' : Engine} {m : Mnemonic} (he : e.CommandEffect m e')
    (hr : e.phase.ready = true) (h : e.LineInv) : e'.LineInv := by
  obtain ⟨hsck, _, _, hrest, _⟩ := id h
  obtain ⟨hw, hb, hi⟩ := hrest hr
  cases he with
  | answer => exact h
  | configure n d hp _ => exact Engine.lineInv_of_ready rfl (by simpa [Engine.Inv5, hp] using hsck) hw hb hi
  | readStart => exact Engine.lineInv_of_timed rfl (by simp) (BitVec.le_refl _) (by simp [Engine.Inv7])
  | powerDown => exact Engine.lineInv_of_ready rfl (by simp) hw hb hi
  | powerUp => exact Engine.lineInv_of_ready rfl (by simp) hw hb hi

/-- A tick of a read keeps the line invariants. -/
theorem Engine.ReadTick.lineInv {e e' : Engine} (he : e.ReadTick e') (h2 : e.Inv2) (h : e.LineInv) : e'.LineInv := by
  obtain ⟨hsck, hwait, hpulse, _, hcommit⟩ := id h
  cases he with
  | wait ht hw =>
    refine Engine.lineInv_of_timed ht ?_ (by simp; bv_omega) hpulse
    cases hp : e.phase <;> simp_all [Engine.Inv5, Phase.timed]
  | sampleBit => exact Engine.lineInv_of_timed rfl (by simp) (BitVec.le_refl _) (by simp [Engine.Inv7])
  | nextBit => exact Engine.lineInv_of_timed rfl (by simp) (BitVec.le_refl _) (by simp [Engine.Inv7])
  | firstSelector hp =>
    obtain ⟨_, hne⟩ := h2 (by simp [hp])
    exact Engine.lineInv_of_timed rfl (by simp) (BitVec.le_refl _) fun _ => ⟨by simp, by simp; bv_omega⟩
  | selectorFalls hp => exact Engine.lineInv_of_timed rfl (by simp) (BitVec.le_refl _) fun _ => hpulse (.inl hp)
  | nextSelector hp _ hi =>
    obtain ⟨hge, _⟩ := hpulse (.inr hp)
    exact Engine.lineInv_of_timed rfl (by simp) (BitVec.le_refl _) fun _ => ⟨by simp; bv_omega, by simp; bv_omega⟩
  | toCommit hp hw =>
    simp_all [Engine.LineInv, Engine.Inv5, Engine.Inv6, Engine.Inv7, Engine.AtRest, Phase.ready]
  | finish hp =>
    have hlow : e.sck ≠ true := fun hs => by simpa [hp] using hsck.1 hs
    exact Engine.lineInv_of_ready rfl (by simp [hlow]) (hcommit hp) rfl rfl

/-- The reset values satisfy the inductive invariant (R30, R33). -/
theorem Engine.reset_strongInv : Engine.reset.StrongInv := by decide

/-- A tick of the block keeps INV1 to INV4. -/
theorem State.TickEffect.setupInv {s : State} {e : Engine} (he : s.TickEffect e) (h : s.eng.SetupInv) : e.SetupInv := by
  cases hrst : s.pins.rst with
  | true =>
    cases he with
    | reset => exact ((Engine.strongInv_iff _).1 Engine.reset_strongInv).1
    | wait h | command h | read h => simp [hrst] at h
  | false =>
    rcases he.sameSetup hrst with ⟨_, hs⟩ | ⟨hp, rfl⟩ | ⟨_, _, _, n, sel, d, hsel, rfl⟩
    · exact h.of_sameSetup hs
    · exact h.finish hp
    · exact Engine.configured_setupInv n d _ hsel

/-- A tick of the block keeps the line invariants. -/
theorem State.TickEffect.lineInv {s : State} {e : Engine} (he : s.TickEffect e) (h2 : s.eng.Inv2) (h : s.eng.LineInv) :
    e.LineInv := by
  cases he with
  | reset => exact ((Engine.strongInv_iff _).1 Engine.reset_strongInv).2
  | wait => exact h
  | command _ hr _ hc => exact hc.lineInv hr h
  | read _ hp => exact (Engine.advance_readTick _ hp).lineInv h2 h

/-- A tick of the block keeps the inductive invariant. -/
theorem State.TickEffect.strongInv {s : State} {e : Engine} (he : s.TickEffect e) (h : s.eng.StrongInv) : e.StrongInv := by
  obtain ⟨hsetup, hline⟩ := (Engine.strongInv_iff _).1 h
  exact (Engine.strongInv_iff _).2 ⟨he.setupInv hsetup, he.lineInv hsetup.2.1 hline⟩

/-- Settles O38: the two parts of the invariant, each by the cases of a tick. -/
theorem engineInvariantsKept : Obligations.EngineInvariantsKept := by
  intro s t h ht
  obtain ⟨htick, _, _⟩ := step_effect ht
  exact htick.strongInv h

/-! ## One response per accepted command (R22) -/

/-- An accepted command answers at once, or it starts a read and the strobe is down. -/
theorem Engine.CommandEffect.answers {e e' : Engine} {m : Mnemonic} (he : e.CommandEffect m e') (hr : e.phase.ready = true) :
    (e'.phase.ready = true ∧ e'.rspValid = true) ∨ (e'.phase.ready = false ∧ e'.rspValid = false) := by
  cases he with
  | answer => exact .inl ⟨hr, rfl⟩
  | configure => exact .inl ⟨rfl, rfl⟩
  | readStart => exact .inr ⟨rfl, rfl⟩
  | powerDown => exact .inl ⟨rfl, rfl⟩
  | powerUp => exact .inl ⟨rfl, rfl⟩

/-- A tick of a read ends it with the response, or it goes on and the strobe is down. -/
theorem Engine.ReadTick.answers {e e' : Engine} (he : e.ReadTick e') :
    (e'.phase.ready = true ∧ e'.rspValid = true) ∨ (e'.phase.ready = false ∧ e'.rspValid = false) := by
  cases he with
  | wait ht => exact .inr ⟨(Phase.busy_of_timed ht).1, rfl⟩
  | finish => exact .inl ⟨rfl, rfl⟩
  | sampleBit | nextBit | firstSelector | selectorFalls | nextSelector | toCommit => exact .inr ⟨rfl, rfl⟩

/-- Settles O40: what was owed for the shown response goes, an accepted command comes, and the engine answers it or reads. -/
theorem oneResponsePerCommandKept : Obligations.OneResponsePerCommandKept := by
  intro s t howed hdown ht
  obtain ⟨htick, _, _⟩ := step_effect ht
  unfold State.ResponsesOwed State.StrobeDown at *
  rw [step_owed ht]
  generalize t.eng = e at htick ⊢
  cases htick with
  | reset hrst => simp [State.owedAfter, hrst, Engine.reset, Phase.ready]
  | wait hrst hr ha =>
    cases hv : s.eng.rspValid <;> simp_all [State.owedAfter]
  | command hrst hr ha hc =>
    rcases hc.answers hr with ⟨hr', hv'⟩ | ⟨hr', hv'⟩ <;> cases hv : s.eng.rspValid <;> simp_all [State.owedAfter]
  | read hrst hr =>
    have ha : s.accepted = false := by simp [State.accepted, Engine.cmdReady, hr]
    rcases (Engine.advance_readTick s.pins.dout hr).answers with ⟨hr', hv'⟩ | ⟨hr', hv'⟩ <;>
      simp_all [State.owedAfter]

/-! ## The chip in step with the block (R35, R115, R174) -/

/-- Where a tick leaves the chip's selector undetermined: a reset, a POWER_UP that ends PDOWN, a read completed outside
the contract (R36, R192, R193, U4, U5, U7). -/
theorem Chip.react_undetermined {n : Nat} {rst : Bool} {e e' : Engine} {c : Chip}
    (h : rst = true ∨ (e.phase = .pdown ∧ e'.phase ≠ .pdown) ∨ (e.phase = .commit ∧ c.inContract = false)) :
    (c.react n rst e e').latched = false ∧ (c.react n rst e e').sel = selectorCode (Config.chipSelector n) := by
  rcases c.react_cases n rst e e' with ⟨_, hc⟩ | ⟨_, _, hc⟩ | ⟨_, _, _, hc⟩ | ⟨_, _, _, hc⟩ | ⟨_, _, _, hc⟩ <;> rw [hc]
  · exact ⟨rfl, rfl⟩
  · have hout : c.inContract = false := by simp_all
    simp [Chip.onReadDone, hout]
  · simp_all
  · exact ⟨rfl, rfl⟩
  · simp_all

/-- A read completed under the contract latches the code of its pulses, and its sample was converted under the selector
held before (R35, R96, R174). -/
theorem Chip.onReadDone_of_contract {n : Nat} {c : Chip} {k : SelCode} (hin : c.inContract = true) (hk : k ≠ 0)
    (hedges : c.edges = Config.sampleBits + k.toNat) :
    (c.onReadDone n).latched = true ∧ (c.onReadDone n).sel = k ∧ (c.onReadDone n).sampleSel = c.sel := by
  simp [Chip.onReadDone, hin, Chip.latch_of_edges hk hedges]

/-- A read completed outside the contract delivers a sample whose selector is not determined (R175, U7). -/
theorem Chip.onReadDone_sampleSel_of_broken {n : Nat} {c : Chip} (hout : c.inContract = false) :
    (c.onReadDone n).sampleSel = selectorCode (Config.sampleSelector n) := by
  simp [Chip.onReadDone, hout]

/-- At COMMIT the chip's read is done. -/
theorem Chip.react_of_commit {n : Nat} {e e' : Engine} {c : Chip} (hp : e.phase = .commit) :
    c.react n false e e' = c.onReadDone n := by
  simp [Chip.react, hp]

/-- No other tick touches the selector. -/
theorem Chip.react_keeps_selector {n : Nat} {e e' : Engine} {c : Chip} (hc : e.phase ≠ .commit)
    (hd : e.phase = .pdown → e'.phase = .pdown) :
    (c.react n false e e').latched = c.latched ∧ (c.react n false e e').sel = c.sel := by
  rcases c.react_cases n false e e' with ⟨h, _⟩ | ⟨_, h, _⟩ | ⟨_, _, _, hr⟩ | ⟨_, hp, hp', _⟩ | ⟨_, _, _, hr⟩
  · cases h
  · exact absurd h hc
  · rw [hr]; exact ⟨rfl, rfl⟩
  · exact absurd (hd hp) hp'
  · rw [hr]; exact ⟨rfl, rfl⟩

/-- A sample is delivered at COMMIT only. -/
theorem Chip.react_keeps_sampleSel {n : Nat} {rst : Bool} {e e' : Engine} {c : Chip}
    (h : rst = true ∨ e.phase ≠ .commit) : (c.react n rst e e').sampleSel = c.sampleSel := by
  rcases c.react_cases n rst e e' with ⟨_, hc⟩ | ⟨_, _, hc⟩ | ⟨_, _, _, hc⟩ | ⟨_, _, _, hc⟩ | ⟨_, _, _, hc⟩
  · simp [hc]
  · simp_all
  · simp [hc]
  · simp [hc]
  · simp [hc]

/-- At COMMIT a chip in step has counted the frame's pulses, 24 and a code that is not 0 (INV2, R115). -/
theorem State.ChipInStep.edges_of_commit {s : State} (h : s.ChipInStep) (hp : s.eng.phase = .commit) :
    s.eng.pending ≠ 0 ∧ s.chip.edges = Config.sampleBits + s.eng.pending.toNat := by
  obtain ⟨⟨⟨_, hinv2, _⟩, _⟩, hedges, _⟩ := h
  obtain ⟨_, hne⟩ := hinv2 (by simp [hp])
  exact ⟨hne, by rw [hedges, Engine.edgesMade, hp]⟩

/-- Settles O58: one clause for each lemma about the chip's reaction; INV2 makes the latched code one of a frame. -/
theorem chipSelectorEvents : Obligations.ChipSelectorEvents := by
  intro s t hstep ht
  obtain ⟨_, hchip, htick⟩ := step_effect ht
  rw [hchip, htick]
  refine ⟨Chip.react_undetermined, fun hrst hp hin => ?_, fun hrst hp hout => ?_, fun hrst hc hd => ?_,
    Chip.react_keeps_sampleSel⟩
  · obtain ⟨hne, hedges⟩ := State.ChipInStep.edges_of_commit hstep hp
    simpa [hrst, Chip.react_of_commit hp] using Chip.onReadDone_of_contract hin hne hedges
  · simpa [hrst, Chip.react_of_commit hp] using Chip.onReadDone_sampleSel_of_broken hout
  · simpa [hrst] using Chip.react_keeps_selector hc hd

/-! ### Its edges -/

/-- A rise out of IDLE or in a read is one edge more. -/
theorem Chip.react_edges_of_rise {n k : Nat} {e e' : Engine} {c : Chip} (hc : e.phase ≠ .commit) (hp : e.phase ≠ .pdown)
    (hlow : e.sck = false) (hhigh : e'.sck = true) (hk : c.edges + 1 = k) : (c.react n false e e').edges = k := by
  simp [Chip.react, hc, hp, Chip.edgesAfter, hlow, hhigh, hk]

/-- A tick without a rise leaves the count, unless it ends the frame. -/
theorem Chip.react_edges_of_no_rise {n k : Nat} {e e' : Engine} {c : Chip} (hc : e.phase ≠ .commit)
    (hd : e.phase = .pdown → e'.phase = .pdown) (h : e'.sck = true → e.sck = true) (hk : c.edges = k) :
    (c.react n false e e').edges = k := by
  rcases c.react_cases n false e e' with ⟨hr, _⟩ | ⟨_, hp, _⟩ | ⟨_, _, _, hr⟩ | ⟨_, hp, hp', _⟩ | ⟨_, _, _, hr⟩
  · cases hr
  · exact absurd hp hc
  · rw [hr, hk]
  · exact absurd (hd hp) hp'
  · rw [hr, Chip.onLevel_edges, Chip.edgesAfter, if_neg, hk]
    cases hs : e'.sck <;> simp_all

/-- INV5 as an equation. -/
theorem Engine.Inv5.sck_eq {e : Engine} (h : e.Inv5) :
    e.sck = decide (e.phase = .pdown ∨ e.phase = .rdHi ∨ e.phase = .trHi) := by
  rw [Bool.eq_iff_iff, decide_eq_true_iff]
  exact h

/-- The count follows an accepted command. -/
theorem Engine.CommandEffect.edges {e e' : Engine} {m : Mnemonic} (he : e.CommandEffect m e') {c : Chip} (n : Nat)
    (hr : e.phase.ready = true) (h5 : e.Inv5) (h : c.edges = e.edgesMade) :
    (c.react n false e e').edges = e'.edgesMade := by
  have hc := Phase.ne_commit_of_ready hr
  cases he with
  | answer => exact Chip.react_edges_of_no_rise hc id id h
  | configure k d hp => exact Chip.react_edges_of_no_rise hc (by simp [hp]) id (by simp [h, hp, Engine.edgesMade])
  | readStart hp =>
    exact Chip.react_edges_of_rise hc (by simp [hp]) (by simp [h5.sck_eq, hp]) rfl (by simp [h, hp, Engine.edgesMade])
  | powerDown hp =>
    exact Chip.react_edges_of_rise hc (by simp [hp]) (by simp [h5.sck_eq, hp]) rfl (by simp [h, hp, Engine.edgesMade])
  | powerUp hp => simp [Chip.react, hp, Engine.edgesMade]

/-- The count follows a tick of a read. -/
theorem Engine.ReadTick.edges {e e' : Engine} (he : e.ReadTick e') {c : Chip} (n : Nat) (h5 : e.Inv5) (h7 : e.Inv7)
    (h : c.edges = e.edgesMade) : (c.react n false e e').edges = e'.edgesMade := by
  have rise {e' : Engine} {k : Nat} (hp : e.phase = .rdLo ∨ e.phase = .trLo) (hs : e'.sck = true)
      (hk : e.edgesMade + 1 = k) : (c.react n false e e').edges = k := by
    rcases hp with hp | hp <;>
      exact Chip.react_edges_of_rise (by simp [hp]) (by simp [hp]) (by simp [h5.sck_eq, hp]) hs (h ▸ hk)
  have stay {e' : Engine} {k : Nat} (ht : e.phase.timed = true) (hs : e'.sck = true → e.sck = true)
      (hk : e.edgesMade = k) : (c.react n false e e').edges = k :=
    Chip.react_edges_of_no_rise (Phase.busy_of_timed ht).2 (fun hp => by simp [hp, Phase.timed] at ht) hs (h.trans hk)
  cases he with
  | wait ht => exact stay ht id rfl
  | sampleBit b hp => exact stay (by rw [hp]; rfl) (by simp) (by simp [Engine.edgesMade, hp])
  | nextBit hp _ hb =>
    have hsucc : (e.bitIdx + 1).val = e.bitIdx.val + 1 := Fin.val_add_one_of_lt' (by omega)
    exact rise (.inl hp) rfl (by simp [Engine.edgesMade, hp, hsucc])
  | firstSelector hp _ hb =>
    have hlast : e.bitIdx.val = 23 := by omega
    exact rise (.inl hp) rfl (by simp [Engine.edgesMade, hp, hlast, Config.sampleBits])
  | selectorFalls hp => exact stay (by rw [hp]; rfl) (by simp) (by simp [Engine.edgesMade, hp])
  | nextSelector hp _ hi =>
    have hsucc : (e.pulseIdx + 1).toNat = e.pulseIdx.toNat + 1 := by bv_omega
    exact rise (.inr hp) rfl (by simp only [Engine.edgesMade, hp, Engine.level_phase, Engine.level_pulseIdx, hsucc]; rfl)
  | toCommit hp _ hi =>
    have hlast : e.pulseIdx = e.pending := by
      obtain ⟨_, hle⟩ := h7 (.inr hp)
      bv_omega
    exact stay (by rw [hp]; rfl) id (by simp [Engine.edgesMade, hp, hlast])
  | finish hp => simp [Chip.react_of_commit hp, Engine.edgesMade]

/-- A tick keeps the chip's count of edges in step. -/
theorem State.TickEffect.edges {s : State} {e : Engine} (he : s.TickEffect e) (n : Nat) (hinv : s.eng.StrongInv)
    (h : s.EdgesInStep) : (s.chip.react n s.pins.rst s.eng e).edges = e.edgesMade := by
  obtain ⟨⟨_, _, _, _, h5, _, h7⟩, _⟩ := hinv
  cases he with
  | reset hrst => rw [hrst]; rfl
  | wait hrst hr => rw [hrst]; exact Chip.react_edges_of_no_rise (Phase.ne_commit_of_ready hr) id id h
  | command hrst hr _ hc => rw [hrst]; exact hc.edges n hr h5 h
  | read hrst hp => rw [hrst]; exact (Engine.advance_readTick _ hp).edges n h5 h7 h

/-! ### Its selector -/

/-- What the last read emitted is the setup's matter. -/
theorem Engine.SameSetup.emittedLast {e e' : Engine} (h : e.SameSetup e') : e'.emittedLast = e.emittedLast := by
  simp [Engine.emittedLast, h.cfgNch, h.cfgSel, h.lastCh]

/-- COMMIT makes the pending code the one emitted last (R97, INV3, INV4). -/
theorem Engine.SetupInv.finish_emittedLast {e : Engine} (h : e.SetupInv) (hp : e.phase = .commit) :
    e.finish.emittedLast = e.pending := by
  obtain ⟨_, _, h3, h4⟩ := h
  cases hn : e.cfgNch <;> cases hl : e.lastCh <;>
    simp_all [Engine.emittedLast, Engine.attribution, Channel.other, Engine.Inv3, Engine.Inv4]

/-- A tick keeps the chip's selector in step: where it is latched, the tick kept it with the setup, or it was COMMIT's. -/
theorem State.TickEffect.selector {s : State} {e : Engine} (he : s.TickEffect e) (n : Nat) (h : s.ChipInStep)
    (hl : (s.chip.react n s.pins.rst s.eng e).latched = true) :
    e.phase ≠ .unconf ∧ (s.chip.react n s.pins.rst s.eng e).sel = e.emittedLast := by
  obtain ⟨hinv, _, hsel, _⟩ := id h
  have hu : ¬(s.pins.rst = true ∨ (s.eng.phase = .pdown ∧ e.phase ≠ .pdown) ∨
      (s.eng.phase = .commit ∧ s.chip.inContract = false)) := fun hu => by
    simp [(Chip.react_undetermined hu).1] at hl
  obtain ⟨hrst, hpd, hin⟩ : ¬_ ∧ ¬_ ∧ ¬_ := by simpa only [not_or] using hu
  replace hrst : s.pins.rst = false := by simpa using hrst
  rw [hrst] at hl ⊢
  rcases he.sameSetup hrst with ⟨hc, hs⟩ | ⟨hp, rfl⟩ | ⟨hp, _, _, _, _, _, _, rfl⟩
  · obtain ⟨hl', hsel'⟩ := Chip.react_keeps_selector (n := n) (c := s.chip) hc
      fun hp => by_contra fun hp' => hpd ⟨hp, hp'⟩
    obtain ⟨hconf, hlast⟩ := hsel (hl' ▸ hl)
    exact ⟨fun hx => hconf (hs.unconf.1 hx), by rw [hsel', hlast, hs.emittedLast]⟩
  · obtain ⟨hne, hedges⟩ := State.ChipInStep.edges_of_commit h hp
    obtain ⟨_, hk, _⟩ := Chip.onReadDone_of_contract (n := n) (by simpa [hp] using hin) hne hedges
    obtain ⟨hsetup, _⟩ := (Engine.strongInv_iff _).1 hinv
    exact ⟨by simp, by rw [Chip.react_of_commit hp, hk, hsetup.finish_emittedLast hp]⟩
  · obtain ⟨hl', _⟩ := Chip.react_keeps_selector (n := n) (c := s.chip) (e' := s.eng.configured _ _ _)
      (show s.eng.phase ≠ .commit by simp [hp]) (by simp [hp])
    exact absurd hp (hsel (hl' ▸ hl)).1

/-! ### Its levels -/

/-- Where a level begins the pin has shown it for no tick and `wait` counts all of it. -/
theorem Chip.levelAfter_of_level {ph : Phase} {b : Bool} {e e₁ : Engine} {c : Chip} (h : e.sck ≠ b) :
    c.levelAfter e (e₁.level ph b) + (e₁.level ph b).wait.toNat = (e₁.level ph b).cfgDly.toNat := by
  simp [Chip.levelAfter, h]

/-- A tick of a read keeps the level in step. -/
theorem Engine.ReadTick.level {e e' : Engine} (he : e.ReadTick e') {c : Chip} (h5 : e.Inv5)
    (h : e.phase.timed = true → c.levelTicks + e.wait.toNat = e.cfgDly.toNat) (ht : e'.phase.timed = true) :
    c.levelAfter e e' + e'.wait.toNat = e'.cfgDly.toNat := by
  cases he with
  | wait ht' hw =>
    have hpred : (e.wait - 1).toNat + 1 = e.wait.toNat := by bv_omega
    have := h ht'
    simp only [Chip.levelAfter, Engine.waitTick_sck, Engine.waitTick_wait, Engine.waitTick_cfgDly, if_true]
    omega
  | sampleBit b hp => exact Chip.levelAfter_of_level (by simp [h5.sck_eq, hp])
  | nextBit hp => exact Chip.levelAfter_of_level (by simp [h5.sck_eq, hp])
  | firstSelector hp => exact Chip.levelAfter_of_level (by simp [h5.sck_eq, hp])
  | selectorFalls hp => exact Chip.levelAfter_of_level (by simp [h5.sck_eq, hp])
  | nextSelector hp => exact Chip.levelAfter_of_level (by simp [h5.sck_eq, hp])
  | toCommit => cases ht
  | finish => cases ht

/-- An accepted command that starts a level starts it in step. -/
theorem Engine.CommandEffect.level {e e' : Engine} {m : Mnemonic} (he : e.CommandEffect m e') {c : Chip}
    (hr : e.phase.ready = true) (h5 : e.Inv5) (ht : e'.phase.timed = true) :
    c.levelAfter e e' + e'.wait.toNat = e'.cfgDly.toNat := by
  cases he with
  | answer => simp [Phase.timed_of_ready hr] at ht
  | readStart hp => exact Chip.levelAfter_of_level (by simp [h5.sck_eq, hp])
  | configure | powerDown | powerUp => cases ht

/-- A tick keeps the chip's count of the level's ticks in step. -/
theorem State.TickEffect.level {s : State} {e : Engine} (he : s.TickEffect e) (h5 : s.eng.Inv5) (h : s.LevelInStep)
    (ht : e.phase.timed = true) : s.chip.levelAfter s.eng e + e.wait.toNat = e.cfgDly.toNat := by
  cases he with
  | reset => cases ht
  | wait _ hr => simp [Phase.timed_of_ready hr] at ht
  | command _ hr _ hc => exact hc.level hr h5 ht
  | read _ hp => exact (Engine.advance_readTick _ hp).level h5 h ht

/-- Settles O43: the engine's invariant, the edges, the selector and the levels, each by the cases of a tick. -/
theorem chipInStepKept : Obligations.ChipInStepKept := by
  intro s t h ht
  obtain ⟨hinv, hedges, _, hlevel⟩ := id h
  obtain ⟨⟨_, _, _, _, h5, _⟩, _⟩ := id hinv
  obtain ⟨htick, hchip, _⟩ := step_effect ht
  unfold State.ChipInStep State.EdgesInStep State.SelectorInStep State.LevelInStep
  rw [hchip]
  exact ⟨htick.strongInv hinv, htick.edges _ hinv hedges, htick.selector _ h, htick.level h5 hlevel⟩

/-! ## Reset and the STATUS word -/

/-- Settles O11: the model's reset values are the table's. -/
theorem resetValues : Obligations.ResetValues := rfl

/-- Settles O39: the relations hold of the one reset state, whose host has no store and is owed nothing. -/
theorem invariantsHoldAtReset : Obligations.InvariantsHoldAtReset := by
  refine ⟨Engine.reset_strongInv, by decide, by decide, by decide, ⟨?_, rfl, ?_⟩, by decide⟩
  · intro st h
    cases h
  · intro k h
    cases h

/-- Settles O18: the flags bit by bit, the fields by taking the parts below them away. -/
theorem statusWordLayout : Obligations.StatusWordLayout := by
  intro b e
  unfold Engine.statusWord
  refine ⟨?_, ?_, ?_, ?_, ?_, ?_, ?_, ?_, ?_, ?_, ?_, ?_⟩
  case refine_5 | refine_6 | refine_10 | refine_11 =>
    simp (disch := decide) only [BitVec.extractLsb'_append_eq_of_le, -Nat.reduceAdd]
    exact BitVec.extractLsb'_append_eq_right
  case refine_12 =>
    simp (disch := decide) only [BitVec.extractLsb'_append_eq_of_le, -Nat.reduceAdd]
    rfl
  all_goals
    simp only [BitVec.getLsbD_append]
    simp [Engine.flagReady, Engine.flagConfigured, Engine.flagPdown, Engine.flagNch2, Engine.flagLast2]

end Sys2Proof.Machine
end

section
/-!
PROOFS. The memory family: the bits of the deserializer's register (20_memory.md R47, 41_cmd_poll.md R90). One shift moves
every bit up by one and puts the new one at the bottom, so the bits of a frame stand in it first bit highest.
-/
namespace Sys2Proof.Machine

/-- The sampled bit becomes bit 0 (R90). -/
@[simp] theorem shiftIn_getLsbD_zero (a : Sample) (b : Bool) : (shiftIn a b).getLsbD 0 = b := by
  rw [shiftIn, BitVec.getLsbD_append]
  simp

/-- Every older bit but the top one moves up by one (R90). -/
theorem shiftIn_getLsbD_succ (a : Sample) (b : Bool) {i : Nat} (hi : i < 23) :
    (shiftIn a b).getLsbD (i + 1) = a.getLsbD i := by
  rw [shiftIn, BitVec.getLsbD_append]
  simp [hi]

/-- The bits held before move up by the number of bits sampled. -/
theorem deserialize_getLsbD_add_length (bits : List Bool) {a : Sample} {i : Nat} (hi : i + bits.length < 24) :
    (deserialize a bits).getLsbD (i + bits.length) = a.getLsbD i := by
  induction bits generalizing a i with
  | nil => rfl
  | cons b bs ih =>
    rw [List.length_cons] at hi ⊢
    calc (deserialize (shiftIn a b) bs).getLsbD (i + (bs.length + 1))
        = (deserialize (shiftIn a b) bs).getLsbD (i + 1 + bs.length) := by rw [Nat.add_right_comm, Nat.add_assoc]
      _ = (shiftIn a b).getLsbD (i + 1) := ih (by omega)
      _ = a.getLsbD i := shiftIn_getLsbD_succ a b (by omega)

/-- At most 24 sampled bits stand in the register in time order from bit `length - 1` down. -/
theorem deserialize_getLsbD_sampled (bits : List Bool) {a : Sample} {k : Nat} (hlen : bits.length ≤ 24)
    (hk : k < bits.length) : (deserialize a bits).getLsbD (bits.length - 1 - k) = bits.getD k false := by
  induction bits generalizing a k with
  | nil => cases hk
  | cons b bs ih =>
    rw [List.length_cons] at hlen hk ⊢
    cases k with
    | zero =>
      have hfirst : (deserialize (shiftIn a b) bs).getLsbD (0 + bs.length) = b :=
        (deserialize_getLsbD_add_length bs (by omega)).trans (shiftIn_getLsbD_zero a b)
      simpa [deserialize] using hfirst
    | succ k =>
      have hrest := ih (a := shiftIn a b) (by omega) (Nat.lt_of_succ_lt_succ hk)
      rwa [show bs.length + 1 - 1 - (k + 1) = bs.length - 1 - k by omega, List.getD_cons_succ]

/-- Settles O34: a whole frame fills the register, so each of its bits is where a sampled bit stands. -/
theorem deserializerMsbFirst : Obligations.DeserializerMsbFirst := by
  intro a bits k hlen hk
  simpa [hlen] using deserialize_getLsbD_sampled bits (a := a) hlen.le (hlen ▸ hk)

end Sys2Proof.Machine
end

section
/-!
PROOFS. The encoding family: words and commands (30_encoding.md R57 to R65), the assembler's words (R72) and construct's (R73).
The decoder is said once per opcode (`decode_poll` and its like, over `opcode_cases`), the fields once per format; the two
round trips, the opcode map and the operand fields are then read off them.
-/
namespace Sys2Proof

/-! ## The fields of a word -/

/-- A format-N word keeps its ignored bits in c[27:0] (R58). -/
@[simp] theorem fieldRest_encodeN (op : BitVec 4) (ign : BitVec 28) : fieldRest (encodeN op ign) = ign :=
  BitVec.extractLsb'_append_eq_right

/-- A word is its opcode and the bits below it (R57). -/
theorem encodeN_of_fieldOp {c : Word} {op : BitVec 4} (h : fieldOp c = op) : encodeN op (fieldRest c) = c := by
  subst h
  exact (BitVec.extractLsb'_append_extractLsb'_eq_extractLsb' rfl).trans BitVec.extractLsb'_eq_self

/-- The bits below the opcode are the five fields of format C (R58). -/
theorem formatC_fields_append (c : Word) :
    fieldNchRaw c ++ fieldIgnHi c ++ fieldSel c ++ fieldDly c ++ fieldIgnLo c = fieldRest c := by
  unfold fieldNchRaw fieldIgnHi fieldSel fieldDly fieldIgnLo fieldRest
  simp (disch := decide) only [BitVec.extractLsb'_append_extractLsb'_eq_extractLsb']

/-- A word with opcode 1 is the format-C word of its own fields (R58). -/
theorem encodeC_fields {c : Word} (h : fieldOp c = 0x1#4) :
    encodeC (fieldNchRaw c) (fieldIgnHi c) (fieldSel c) (fieldDly c) (fieldIgnLo c) = c := by
  rw [encodeC, formatC_fields_append, encodeN_of_fieldOp h]

/-- Below the opcode a format-N word is its ignored bits (R58). -/
theorem extractLsb'_encodeN {start len : Nat} (op : BitVec 4) (ign : BitVec 28) (h : start + len ≤ 28) :
    (encodeN op ign).extractLsb' start len = ign.extractLsb' start len :=
  BitVec.extractLsb'_append_eq_of_add_le h

/-- A format-C word keeps its five fields at their places (R58). -/
theorem formatC_fields_encodeC (n : Byte) (hi : BitVec 2) (sel : SelCode) (d lo : Byte) :
    fieldNchRaw (encodeC n hi sel d lo) = n ∧ fieldIgnHi (encodeC n hi sel d lo) = hi ∧
      fieldSel (encodeC n hi sel d lo) = sel ∧ fieldDly (encodeC n hi sel d lo) = d ∧
        fieldIgnLo (encodeC n hi sel d lo) = lo := by
  unfold fieldNchRaw fieldIgnHi fieldSel fieldDly fieldIgnLo encodeC
  simp (disch := decide) only [extractLsb'_encodeN, BitVec.extractLsb'_append_eq_of_le, -Nat.reduceAdd]
  exact ⟨BitVec.extractLsb'_eq_self, BitVec.extractLsb'_append_eq_right, BitVec.extractLsb'_append_eq_right,
    BitVec.extractLsb'_append_eq_right, BitVec.extractLsb'_append_eq_right⟩

/-! ## The fields as numbers -/

/-- OP is the unsigned number c[31:28] (R57). -/
theorem toNat_fieldOp (c : Word) : (fieldOp c).toNat = c.toNat / 2 ^ 28 := by
  rw [fieldOp, BitVec.extractLsb'_toNat, Nat.shiftRight_eq_div_pow]
  exact Nat.mod_eq_of_lt (by have := c.isLt; omega)

/-- NCH_RAW is the unsigned number c[27:20] (R58). -/
theorem toNat_fieldNchRaw (c : Word) : (fieldNchRaw c).toNat = c.toNat / 2 ^ 20 % 2 ^ 8 := by
  rw [fieldNchRaw, BitVec.extractLsb'_toNat, Nat.shiftRight_eq_div_pow]

/-- SEL is the unsigned number c[17:16] (R58). -/
theorem toNat_fieldSel (c : Word) : (fieldSel c).toNat = c.toNat / 2 ^ 16 % 2 ^ 2 := by
  rw [fieldSel, BitVec.extractLsb'_toNat, Nat.shiftRight_eq_div_pow]

/-- DLY is the unsigned number c[15:8] (R58). -/
theorem toNat_fieldDly (c : Word) : (fieldDly c).toNat = c.toNat / 2 ^ 8 % 2 ^ 8 := by
  rw [fieldDly, BitVec.extractLsb'_toNat, Nat.shiftRight_eq_div_pow]

/-- One field above another weighs two to the width of the lower one. -/
theorem toNat_append_eq_add {v w : Nat} (x : BitVec v) (y : BitVec w) :
    (x ++ y).toNat = x.toNat * 2 ^ w + y.toNat := by
  rw [BitVec.toNat_append, ← Nat.shiftLeft_add_eq_or_of_lt y.isLt, Nat.shiftLeft_eq]

/-- A format-C word as a number (R58). -/
theorem toNat_encodeC (n : Byte) (hi : BitVec 2) (sel : SelCode) (d lo : Byte) :
    (encodeC n hi sel d lo).toNat =
      2 ^ 28 + n.toNat * 2 ^ 20 + hi.toNat * 2 ^ 18 + sel.toNat * 2 ^ 16 + d.toNat * 2 ^ 8 + lo.toNat := by
  simp only [encodeC, encodeN, toNat_append_eq_add, BitVec.toNat_ofNat]
  omega

/-! ## The decoder, by opcode (R60): one equation per row of the map -/

/-- The opcodes of the map: six commands, two reserved ones, and the upper half (R60). -/
theorem opcode_cases (op : BitVec 4) :
    op = 0x1#4 ∨ op = 0x2#4 ∨ op = 0x3#4 ∨ op = 0x4#4 ∨ op = 0x5#4 ∨ op = 0x6#4 ∨ op = 0x0#4 ∨ op = 0x7#4 ∨
      op.msb = true := by
  revert op
  decide

section Decoder
variable {c : Word}

theorem decode_configure (h : fieldOp c = 0x1#4) :
    decode c = .configure (fieldNchRaw c) (fieldIgnHi c) (fieldSel c) (fieldDly c) (fieldIgnLo c) := if_pos h
theorem decode_poll (h : fieldOp c = 0x2#4) : decode c = .poll (fieldRest c) := by simp [decode, h]
theorem decode_powerDown (h : fieldOp c = 0x3#4) : decode c = .powerDown (fieldRest c) := by simp [decode, h]
theorem decode_powerUp (h : fieldOp c = 0x4#4) : decode c = .powerUp (fieldRest c) := by simp [decode, h]
theorem decode_isReady (h : fieldOp c = 0x5#4) : decode c = .isReady (fieldRest c) := by simp [decode, h]
theorem decode_readStatus (h : fieldOp c = 0x6#4) : decode c = .readStatus (fieldRest c) := by simp [decode, h]
theorem decode_reservedZero (h : fieldOp c = 0x0#4) : decode c = .reservedZero (fieldRest c) := by simp [decode, h]
theorem decode_reservedSeven (h : fieldOp c = 0x7#4) : decode c = .reservedSeven (fieldRest c) := by simp [decode, h]
theorem decode_reservedHigh (h : (fieldOp c).msb = true) : decode c = .reservedHigh (fieldOp c) (fieldRest c) := by
  have hne : ∀ op : BitVec 4, op.msb = false → fieldOp c ≠ op := by
    rintro op hop rfl
    simp [hop] at h
  simp (disch := decide) only [decode, hne, if_false]

end Decoder

/-! ## Round trips -/

open Laws.OpcodeField (fieldOp_encodeN)

/-- Settles O1: the word's opcode is the command's, so the decoder takes its branch and reads its fields back. -/
theorem decodeEncodeRoundTrip : Obligations.DecodeEncodeRoundTrip := by
  intro i hwf
  cases i with
  | configure n hi sel d lo =>
    obtain ⟨hn, hhi, hsel, hd, hlo⟩ := formatC_fields_encodeC n hi sel d lo
    have hop : fieldOp (encodeC n hi sel d lo) = 0x1#4 := fieldOp_encodeN ..
    rw [encode, decode_configure hop, hn, hhi, hsel, hd, hlo]
  | poll ign => simp [encode, decode_poll, fieldOp_encodeN]
  | powerDown ign => simp [encode, decode_powerDown, fieldOp_encodeN]
  | powerUp ign => simp [encode, decode_powerUp, fieldOp_encodeN]
  | isReady ign => simp [encode, decode_isReady, fieldOp_encodeN]
  | readStatus ign => simp [encode, decode_readStatus, fieldOp_encodeN]
  | reservedZero ign => simp [encode, decode_reservedZero, fieldOp_encodeN]
  | reservedSeven ign => simp [encode, decode_reservedSeven, fieldOp_encodeN]
  | reservedHigh op ign =>
    have hop : op.msb = true := hwf
    simp [encode, decode_reservedHigh, fieldOp_encodeN, hop]

/-- Settles O2: by opcode, the command the word decodes to encodes as the word of its own fields. -/
theorem encodeDecodeRoundTrip : Obligations.EncodeDecodeRoundTrip := by
  intro c
  rcases opcode_cases (fieldOp c) with h | h | h | h | h | h | h | h | h
  · rw [decode_configure h]; exact ⟨rfl, encodeC_fields h⟩
  · rw [decode_poll h]; exact ⟨rfl, encodeN_of_fieldOp h⟩
  · rw [decode_powerDown h]; exact ⟨rfl, encodeN_of_fieldOp h⟩
  · rw [decode_powerUp h]; exact ⟨rfl, encodeN_of_fieldOp h⟩
  · rw [decode_isReady h]; exact ⟨rfl, encodeN_of_fieldOp h⟩
  · rw [decode_readStatus h]; exact ⟨rfl, encodeN_of_fieldOp h⟩
  · rw [decode_reservedZero h]; exact ⟨rfl, encodeN_of_fieldOp h⟩
  · rw [decode_reservedSeven h]; exact ⟨rfl, encodeN_of_fieldOp h⟩
  · rw [decode_reservedHigh h]; exact ⟨h, encodeN_of_fieldOp rfl⟩

/-- Settles O3: by opcode, of which c[31:28] is the number. -/
theorem decoderFollowsOpcodeMap : Obligations.DecoderFollowsOpcodeMap := by
  intro c
  rw [← toNat_fieldOp]
  rcases opcode_cases (fieldOp c) with h | h | h | h | h | h | h | h | h
  · simp [decode_configure, h, Instr.mnemonic]
  · simp [decode_poll, h, Instr.mnemonic]
  · simp [decode_powerDown, h, Instr.mnemonic]
  · simp [decode_powerUp, h, Instr.mnemonic]
  · simp [decode_isReady, h, Instr.mnemonic]
  · simp [decode_readStatus, h, Instr.mnemonic]
  · simp [decode_reservedZero, h, Instr.mnemonic]
  · simp [decode_reservedSeven, h, Instr.mnemonic]
  · have hge : 8 ≤ (fieldOp c).toNat := by simpa [BitVec.msb_eq_decide] using h
    simp only [decode_reservedHigh h, Instr.mnemonic, reduceCtorEq, false_iff, true_iff]
    omega

/-- Settles O5: the decoder run on each word. -/
theorem decodesSpecVectors : Obligations.DecodesSpecVectors := by
  unfold Obligations.DecodesSpecVectors
  decide

end Sys2Proof

namespace Sys2Proof.Machine

/-- The normalized channel count, by the number NCH_RAW stands for (R59). -/
theorem chanCount_eq (n : Byte) : chanCount n = if n.toNat = 2 then .two else .one := by
  simp [chanCount, BitVec.toNat_eq]

/-- Settles O4: opcode 1 decodes to the fields of format C. -/
theorem configureOperandFields : Obligations.ConfigureOperandFields := by
  intro c hop
  have hop' : fieldOp c = 0x1#4 := BitVec.eq_of_toNat_eq ((toNat_fieldOp c).trans hop)
  exact ⟨_, _, _, _, _, decode_configure hop', toNat_fieldNchRaw c, toNat_fieldSel c, toNat_fieldDly c,
    by rw [chanCount_eq, toNat_fieldNchRaw]⟩

/-! ## What the bits mean -/

/-- Settles O6: no arm of `exec` reads the ignored bits, so both sides are one term. -/
theorem ignoredBitsMeanNothing : Obligations.IgnoredBitsMeanNothing :=
  ⟨fun _ _ _ _ _ _ _ _ => rfl, fun _ _ _ => ⟨rfl, rfl, rfl, rfl, rfl, rfl, rfl, fun _ _ => rfl⟩⟩

/-- Settles O21: each reserved row is the rejection, run where the phase accepts commands. -/
theorem reservedOpcodesRejected : Obligations.ReservedOpcodesRejected := by
  intro x op s hready
  exact ⟨whenReady_of_ready s.eng.reject hready, whenReady_of_ready s.eng.reject hready,
    whenReady_of_ready s.eng.reject hready⟩

/-! ## Attribution and conversion -/

/-- With two channels the code emitted last is that of the channel the read is attributed to (R68, R71, R97). -/
theorem Engine.emittedLast_of_two {e : Engine} (h : e.cfgNch = .two) :
    e.emittedLast = if e.attribution = .ch1 then e.cfgSel else 2 := by
  cases hl : e.lastCh <;> simp [Engine.emittedLast, Engine.attribution, Channel.other, h, hl]

/-- Settles O44: a read completed under the contract delivers the selector held before (`chipSelectorEvents`), which for a chip
in step is the code emitted last. -/
theorem attributionMatchesConversion : Obligations.AttributionMatchesConversion := by
  intro s t hstep hrst hphase htwo hin ht
  obtain ⟨_, hread, _⟩ := chipSelectorEvents s t hstep ht
  obtain ⟨hlatched, hsel, hsample⟩ := hread hrst hphase hin
  obtain ⟨_, _, hinstep, _⟩ := hstep
  refine ⟨fun hl => ?_, hsel, hlatched⟩
  obtain ⟨_, hlast⟩ := hinstep hl
  rw [hsample, hlast, Engine.emittedLast_of_two htwo]

/-! ## The assembler's CONFIGURE (R72) -/

/-- Settles O57: the word as a number has the three operands at their places and zeros between. -/
theorem assemblerConfigure : Obligations.AssemblerConfigure := by
  intro nch sel dly
  refine ⟨fun hn hs hs' hd => ⟨_, if_pos ⟨hn, hs, hs', hd⟩, ?_⟩, fun hout => if_neg (by omega)⟩
  simp only [encode, toNat_encodeC, BitVec.ofNat_eq_ofNat, BitVec.toNat_ofNat]
  omega

/-! ## construct (R73, R131, R133) -/

/-- construct offers the CONFIGURE of its operands and remembers the store it will start (R73, R131). -/
theorem HostAgent.construct_of_gain {a : ConstructArgs} {sel : SelCode} (h : HostAgent) (hcap : a.capacity ≠ 0)
    (hg : gainCode a.gainValue = some sel) :
    h.construct a = .next ({ h with offering := .construct a.capacity (chanCount a.nchRaw) },
      some (encode (.configure a.nchRaw 0 sel a.delay 0))) := by
  simp [HostAgent.construct, HostAgent.offer, hcap, ConstructArgs.word_eq, hg]

/-- A gain S does not map is refused (R73). -/
theorem HostAgent.construct_of_unknown_gain {a : ConstructArgs} (h : HostAgent) (hcap : a.capacity ≠ 0)
    (hg : gainCode a.gainValue = none) : h.construct a = .refused (.gainUnknown a.gainValue) := by
  simp [HostAgent.construct, hcap, ConstructArgs.word_eq, hg]

/-- S maps three gains (R73). -/
theorem gainCode_eq_some {gain : Nat} {sel : SelCode}
    (h : (gain = 128 ∧ sel = 1) ∨ (gain = 64 ∧ sel = 3) ∨ (gain = 32 ∧ sel = 2)) : gainCode gain = some sel := by
  rcases h with ⟨rfl, rfl⟩ | ⟨rfl, rfl⟩ | ⟨rfl, rfl⟩ <;> rfl

/-- S maps no other gain (R73). -/
theorem gainCode_eq_none {gain : Nat} (h128 : gain ≠ 128) (h64 : gain ≠ 64) (h32 : gain ≠ 32) : gainCode gain = none := by
  simp [gainCode, h128, h64, h32]

/-- The store construct starts, with its channel count as requested (R59, R133). -/
theorem Store.initial_ofNat (cap cells : Nat) :
    Store.initial cap (chanCount (BitVec.ofNat 8 cells)) = {
      cap := cap
      nch := if cells % 256 = 2 then .two else .one
      rings := List.replicate (if cells % 256 = 2 then 2 else 1) { slots := List.replicate cap 0, fill := 0 }
      cal1 := { offset := 0, scale := 1 }
      cal2 := { offset := 0, scale := 1 } } := by
  rw [chanCount_eq, BitVec.toNat_ofNat]
  by_cases h : cells % 256 = 2 <;> simp [h] <;> rfl

/-- Settles O56: construct's word and continuation, then what the continuation does with OK and with REJECTED. -/
theorem constructIssuesConfigure : Obligations.ConstructIssuesConfigure := by
  intro h cap cells dly d hcap
  refine ⟨fun gain sel hgain => ?_, fun gain h128 h64 h32 => ?_, fun g => rfl, rfl, by decide⟩
  · refine ⟨_, _, h.construct_of_gain (Nat.ne_of_gt hcap) (gainCode_eq_some hgain), decodeEncodeRoundTrip _ rfl, ?_, rfl⟩
    rw [← Store.initial_ofNat]
    rfl
  · exact h.construct_of_unknown_gain (Nat.ne_of_gt hcap) (gainCode_eq_none h128 h64 h32)

end Sys2Proof.Machine
end

section
/-!
PROOFS. The family of CONFIGURE, IS_READY and READ_STATUS (40_cmd_config_status.md), and what every accepted command does: it
answers or it starts a read (R86). What IS_READY reports and what POLL reads at are put as one condition on the phase and
`dout_s` (R82, R88), so that each statement is a comparison with it.
-/
namespace Sys2Proof.Machine

/-! ## POLL's gate and IS_READY's word -/

/-- Where a command is accepted, POLL starts a read in IDLE with `dout_s` low and answers everywhere else (R88, R89). -/
theorem Engine.poll_of_ready (b : Bool) {e : Engine} (h : e.phase.ready = true) :
    ((e.phase = .idle ∧ b = false) ∧ e.poll b = e.readStart) ∨
      (¬(e.phase = .idle ∧ b = false) ∧ ∃ st, e.poll b = e.respond st 0) := by
  rcases e.poll_cases b with ⟨hu, he⟩ | ⟨_, hgate, he⟩ | ⟨hu, hp, hb, he⟩
  · exact .inr ⟨by simp [hu], _, he⟩
  · exact .inr ⟨by rcases hgate with hp | hb <;> simp [*], _, he⟩
  · have hidle : e.phase = .idle := by simpa [hu, hp] using (Phase.ready_iff _).1 h
    exact .inl ⟨⟨hidle, hb⟩, he⟩

/-- POLL reads where its gate is open and nowhere else (R88). -/
theorem Engine.poll_phase_eq_rdHi_iff (b : Bool) {e : Engine} (h : e.phase.ready = true) :
    (e.poll b).phase = .rdHi ↔ e.phase = .idle ∧ b = false := by
  have hne : e.phase ≠ .rdHi := by
    intro hp
    simp [hp, Phase.ready] at h
  rcases e.poll_of_ready b h with ⟨hgate, he⟩ | ⟨hgate, st, he⟩ <;> rw [he]
  · exact iff_of_true rfl hgate
  · exact iff_of_false hne hgate

/-- The word of the READY flag is 1 where POLL would read, else 0 (R31, R81). -/
theorem Engine.flagWord_flagReady (b : Bool) (e : Engine) :
    flagWord (e.flagReady b) = if e.phase = .idle ∧ b = false then 1 else 0 := by
  by_cases hp : e.phase = .idle <;> cases b <;> simp [flagWord, Engine.flagReady, hp]

/-! ## Every command (R86) -/

/-- The command with POLL's mnemonic is POLL. -/
theorem eq_poll_of_mnemonic {i : Instr} (h : i.mnemonic = .poll) : ∃ x, i = .poll x := by
  cases i with
  | poll x => exact ⟨x, rfl⟩
  | _ => cases h

/-- An accepted command other than POLL answers at once (R86). -/
theorem Engine.CommandEffect.rspValid_of_ne_poll {e e' : Engine} {m : Mnemonic} (he : e.CommandEffect m e')
    (hm : m ≠ .poll) : e'.rspValid = true := by
  cases he with
  | readStart => exact absurd rfl hm
  | answer | configure | powerDown | powerUp => rfl

/-- Settles O9: in a read phase the block's own tick; else POLL by its gate, and every other command answers. -/
theorem everyCommandAnswersOrReads : Obligations.EveryCommandAnswersOrReads := by
  intro i s
  cases hr : s.eng.phase.ready with
  | false => exact ⟨_, exec_of_busy i hr, nofun⟩
  | true =>
    by_cases hm : i.mnemonic = .poll
    · obtain ⟨x, rfl⟩ := eq_poll_of_mnemonic hm
      refine ⟨_, whenReady_of_ready (s.eng.poll s.pins.dout) hr, fun _ => ?_⟩
      rcases s.eng.poll_of_ready s.pins.dout hr with ⟨⟨hidle, hlow⟩, he⟩ | ⟨_, st, he⟩ <;> rw [he]
      · exact .inr ⟨rfl, hidle, hlow, rfl, rfl⟩
      · exact .inl rfl
    · obtain ⟨e, he, heff⟩ := exec_effect i hr
      exact ⟨e, he, fun _ => .inl (heff.rspValid_of_ne_poll hm)⟩

/-! ## IS_READY and READ_STATUS (R81 to R83) -/

/-- Settles O15: the response's data is the word of the READY flag. -/
theorem isReadyReports : Obligations.IsReadyReports := by
  intro x s hr
  rw [← s.eng.flagWord_flagReady]
  exact whenReady_of_ready _ hr

/-- Settles O16: both sides say that the phase is IDLE and `dout_s` is low. -/
theorem isReadyPredictsRead : Obligations.IsReadyPredictsRead := by
  intro x y s a b hr ha hb
  rw [isReadyReports x s hr] at ha
  have hpoll : exec (.poll y) s = .next (s.withEngine (s.eng.poll s.pins.dout)) := whenReady_of_ready _ hr
  rw [hpoll] at hb
  cases ha
  cases hb
  rw [State.withEngine_eng, Engine.poll_phase_eq_rdHi_iff _ hr]
  simp

/-- Settles O17: the response's data is the STATUS word. -/
theorem readStatusAnswers : Obligations.ReadStatusAnswers :=
  fun _ _ hr => whenReady_of_ready _ hr

/-! ## CONFIGURE (R77, R78) -/

/-- The pending selector a CONFIGURE leaves, by NCH_RAW (R59, R77). -/
theorem initialPending_chanCount (n : Byte) (sel : SelCode) :
    initialPending (chanCount n) sel = if n = 2 then 2 else sel := by
  unfold chanCount
  split <;> rfl

/-- CONFIGURE takes effect in UNCONF with SEL ≠ 0 (R77). -/
theorem exec_configure_of_unconf (n : Byte) (h : BitVec 2) {sel : SelCode} (d l : Byte) {s : State}
    (hp : s.eng.phase = .unconf) (hsel : sel ≠ 0) :
    exec (.configure n h sel d l) s = .next (s.withEngine (s.eng.configured n sel d)) := by
  have hr : s.eng.phase.ready = true := by rw [hp]; rfl
  refine (whenReady_of_ready _ hr).trans ?_
  rw [if_neg (not_not.2 hp), if_neg hsel]

/-- Where it is accepted, CONFIGURE is rejected outside UNCONF and for SEL = 0 (R78). -/
theorem exec_configure_of_rejected (n : Byte) (h : BitVec 2) {sel : SelCode} (d l : Byte) {s : State}
    (hr : s.eng.phase.ready = true) (hrej : s.eng.phase = .unconf → sel = 0) :
    exec (.configure n h sel d l) s = .next (s.withEngine s.eng.reject) := by
  refine (whenReady_of_ready _ hr).trans ?_
  by_cases hp : s.eng.phase = .unconf
  · rw [if_neg (not_not.2 hp), if_pos (hrej hp)]
  · rw [if_pos hp]

/-- Settles O14: the effect and the rejection, each as its lemma has it. -/
theorem configureEffect : Obligations.ConfigureEffect := by
  intro n h sel d l s
  refine ⟨fun hp hsel => ?_, fun hcase => ?_⟩
  · rw [exec_configure_of_unconf n h d l hp hsel, ← initialPending_chanCount]
    rfl
  · have hr : s.eng.phase.ready = true := (Phase.ready_iff _).2 (by tauto)
    refine exec_configure_of_rejected n h d l hr fun hp => ?_
    rcases hcase with hidle | hdown | ⟨_, hsel⟩
    · simp [hp] at hidle
    · simp [hp] at hdown
    · exact hsel

end Sys2Proof.Machine
end

section
/-!
PROOFS. The family of POLL (41_cmd_poll.md): POLL where it does not read (R88, R89), COMMIT (R97), the two laws of
attribution (R99, R100), and the two forms of the deserializer (R90 to R92). The laws are COMMIT's alone: in a run without
reset the k-th read is what `k` earlier COMMITs leave to it (`readsOf_getElem?`), whatever happens in between.
-/
namespace Sys2Proof.Machine

/-! ## POLL where it does not read (R88, R89) -/

/-- Where a command is accepted, POLL is its engine function (R87). -/
theorem exec_poll_of_ready (x : BitVec 28) {s : State} (h : s.eng.phase.ready = true) :
    exec (.poll x) s = .next (s.withEngine (s.eng.poll s.pins.dout)) :=
  whenReady_of_ready _ h

/-- POLL is rejected in UNCONF (R89). -/
theorem Engine.poll_of_unconf (b : Bool) {e : Engine} (hp : e.phase = .unconf) : e.poll b = e.reject :=
  if_pos hp

/-- POLL has no data in PDOWN, and where `dout_s` is high (R88, R89). -/
theorem Engine.poll_of_gate_closed {b : Bool} {e : Engine} (hu : e.phase ≠ .unconf)
    (hgate : e.phase = .pdown ∨ b = true) : e.poll b = e.respond statusNoData 0 := by
  rcases e.poll_cases b with ⟨hp, _⟩ | ⟨_, _, he⟩ | ⟨_, hd, hb, _⟩
  · exact absurd hp hu
  · exact he
  · simp [hd, hb] at hgate

/-- Settles O20: in each of the three cases POLL's engine function is one response. -/
theorem pollWithoutRead : Obligations.PollWithoutRead := by
  intro x s
  refine ⟨fun hp => ?_, fun hp => ?_, fun hp hb => ?_⟩
  · rw [exec_poll_of_ready x (by rw [hp]; rfl), Engine.poll_of_unconf _ hp]
    rfl
  · rw [exec_poll_of_ready x (by rw [hp]; rfl), Engine.poll_of_gate_closed (by simp [hp]) (.inl hp)]
    rfl
  · rw [exec_poll_of_ready x (by rw [hp]; rfl), Engine.poll_of_gate_closed (by simp [hp]) (.inr hb)]
    rfl

/-! ## COMMIT (R97, R114) -/

/-- With one channel a read is channel 1's (R97). -/
theorem Engine.attribution_of_one {e : Engine} (h : e.cfgNch = .one) : e.attribution = .ch1 := by
  simp [Engine.attribution, h]

/-- With one channel `pending` stays (R97). -/
theorem Engine.nextPending_of_one {e : Engine} (h : e.cfgNch = .one) : e.nextPending = e.pending := by
  simp [Engine.nextPending, h]

/-- With two channels a read is the other channel's than the last (R97). -/
theorem Engine.attribution_of_two {e : Engine} (h : e.cfgNch = .two) : e.attribution = e.lastCh.other := by
  simp [Engine.attribution, h]

/-- With two channels `pending` is the configured selector after a channel-1 read, and 2 after a channel-2 read (R97). -/
theorem Engine.nextPending_of_two {e : Engine} (h : e.cfgNch = .two) :
    e.nextPending = if e.attribution = .ch1 then e.cfgSel else 2 := by
  simp [Engine.nextPending, h]

/-- In COMMIT the block's tick is FINISH, whatever the command port shows (R21, R114). -/
theorem engineTick_of_commit {s : State} (hrst : s.pins.rst = false) (hp : s.eng.phase = .commit) :
    engineTick s = .next (s.withEngine s.eng.finish) := by
  have hbusy : s.eng.phase.ready = false := by rw [hp]; rfl
  simp [engineTick, hrst, exec_of_busy _ hbusy, Engine.advance_commit _ hp]

/-- FINISH written out, for the channel and the selector that COMMIT gives (R97, R114). -/
theorem Engine.finish_eq {e : Engine} {ch : Channel} {sel : SelCode} (hch : e.attribution = ch)
    (hsel : e.nextPending = sel) :
    e.finish = { e with
      lastCh := ch, pending := sel
      rspValid := true, rspStatus := ch.status, rspData := e.acc.signExtend 32
      bitIdx := 0, pulseIdx := 0, phase := .idle } := by
  subst hch hsel
  rfl

/-- Settles O29: FINISH with COMMIT's channel and selector in its three cases. (`Machine.commitTick` is the model's number of
that tick.) -/
theorem Engine.commitTick : Obligations.CommitTick := by
  intro s hrst hp
  rw [engineTick_of_commit hrst hp]
  refine ⟨fun hn => ?_, fun hn hl => ?_, fun hn hl => ?_⟩
  · rw [Engine.finish_eq (Engine.attribution_of_one hn) (Engine.nextPending_of_one hn)]
    rfl
  · have hch : s.eng.attribution = .ch1 := by rw [Engine.attribution_of_two hn, hl]; rfl
    rw [Engine.finish_eq hch ((Engine.nextPending_of_two hn).trans (if_pos hch))]
    rfl
  · have hch : s.eng.attribution = .ch2 := by rw [Engine.attribution_of_two hn, hl]; rfl
    rw [Engine.finish_eq hch ((Engine.nextPending_of_two hn).trans (if_neg (by simp [hch])))]
    rfl

/-! ## The reads of a run -/

/-- What `readsOf` records of a read that ends in this engine state: its channel and the code it emitted (R95, R97). -/
def Engine.readRecord (e : Engine) : Channel × SelCode := (e.attribution, e.pending)

/-- The record depends on the configuration and the sequencer's two fields only. -/
theorem Engine.SameSetup.readRecord {e e' : Engine} (h : e.SameSetup e') : e'.readRecord = e.readRecord := by
  simp [Engine.readRecord, Engine.attribution, h.cfgNch, h.lastCh, h.pending]

/-- FINISH writes the sequencer's two fields by the old ones and the configuration. -/
theorem Engine.SameSetup.finish {e e' : Engine} (h : e.SameSetup e') : e.finish.SameSetup e'.finish where
  cfgNch := h.cfgNch
  cfgSel := h.cfgSel
  cfgDly := h.cfgDly
  pending := by
    cases hn : e.cfgNch <;>
      simp [Engine.nextPending, Engine.attribution, hn, h.cfgNch, h.cfgSel, h.lastCh, h.pending]
  lastCh := by simp [Engine.attribution, h.cfgNch, h.lastCh]
  unconf := .rfl

/-- So do `k` of them. -/
theorem Engine.SameSetup.finish_iterate {e e' : Engine} (h : e.SameSetup e') (k : Nat) :
    (Engine.finish^[k] e).SameSetup (Engine.finish^[k] e') := by
  induction k generalizing e e' with
  | zero => exact h
  | succ k ih => exact ih h.finish

/-- The first tick of a configured run without reset either ends a read, by FINISH, or ends none and leaves what decides the
later reads (R29, R101). -/
theorem readsOf_cons {p : Pins} (ps : List Pins) {s : State} (hrst : p.rst = false) (hcfg : s.eng.phase ≠ .unconf) :
    ∃ t : State, (readsOf (p :: ps) s = readsOf ps t ∧ s.eng.SameSetup t.eng) ∨
      (readsOf (p :: ps) s = s.eng.readRecord :: readsOf ps t ∧ t.eng = s.eng.finish) := by
  obtain ⟨e, htick, heff⟩ := engineTick_effect (s.drive p)
  refine ⟨(s.drive p).withEngine e, ?_⟩
  rcases heff.sameSetup hrst with ⟨hp, hs⟩ | ⟨hp, he⟩ | ⟨hp, _⟩ <;> rw [State.drive_eng] at hp
  · exact .inl ⟨by simp [readsOf, blockTick, htick, hp], hs⟩
  · exact .inr ⟨by simp [readsOf, blockTick, htick, hp, hrst, Engine.readRecord], he⟩
  · exact absurd hp hcfg

/-- The `k`-th read of a configured run without reset is the one that `k` COMMITs leave to it, whatever the ports show
(R100, R101). -/
theorem readsOf_getElem? {ps : List Pins} {s : State} {k : Nat} {r : Channel × SelCode} (hcfg : s.eng.phase ≠ .unconf)
    (hrst : ∀ q ∈ ps, q.rst = false) (hr : (readsOf ps s)[k]? = some r) : r = (Engine.finish^[k] s.eng).readRecord := by
  induction ps generalizing s k with
  | nil => cases hr
  | cons p ps ih =>
    obtain ⟨hp, hps⟩ := List.forall_mem_cons.1 hrst
    obtain ⟨t, ⟨hreads, hs⟩ | ⟨hreads, he⟩⟩ := readsOf_cons ps hp hcfg <;> rw [hreads] at hr
    · rw [ih (mt hs.unconf.1 hcfg) hps hr, (hs.finish_iterate k).readRecord]
    · cases k with
      | zero => exact (Option.some.inj hr).symm
      | succ k => rw [ih (by simp [he]) hps hr, he, Function.iterate_succ_apply]

/-! ## The laws of attribution (R99, R100) -/

/-- With one channel COMMIT leaves `pending` the configured selector for ever (R99). -/
theorem Engine.finish_iterate_of_one {e : Engine} (hn : e.cfgNch = .one) (hpend : e.pending = e.cfgSel) (k : Nat) :
    (Engine.finish^[k] e).readRecord = (.ch1, e.cfgSel) := by
  induction k generalizing e with
  | zero => exact Prod.ext (Engine.attribution_of_one hn) hpend
  | succ k ih => exact ih (e := e.finish) hn ((Engine.nextPending_of_one hn).trans hpend)

/-- Settles O37: each of the reads is the one some number of COMMITs leave to it. -/
theorem singleChannelLaw : Obligations.SingleChannelLaw := by
  intro s ps h3 hcfg hn hrst r hr
  obtain ⟨k, hk⟩ := List.mem_iff_getElem?.1 hr
  rw [readsOf_getElem? hcfg hrst hk, Engine.finish_iterate_of_one hn (h3 hcfg hn)]

/-- With two channels two COMMITs after a channel-2 read come back to where they began (R98). -/
theorem Engine.sameSetup_finish_finish {e : Engine} (hn : e.cfgNch = .two) (hl : e.lastCh = .ch2) (hpend : e.pending = 2)
    (hcfg : e.phase ≠ .unconf) : e.SameSetup e.finish.finish where
  cfgNch := rfl
  cfgSel := rfl
  cfgDly := rfl
  pending := by simp [Engine.nextPending, Engine.attribution, Channel.other, hn, hl, hpend]
  lastCh := by simp [Engine.attribution, Channel.other, hn, hl]
  unconf := by simp [hcfg]

/-- With two channels the reads alternate: channel 1 with code 2, channel 2 with the configured selector (R98, R100). -/
theorem Engine.finish_iterate_of_two {e : Engine} (hn : e.cfgNch = .two) (hl : e.lastCh = .ch2) (hpend : e.pending = 2)
    (hcfg : e.phase ≠ .unconf) (k : Nat) :
    (Engine.finish^[k] e).readRecord = if k % 2 = 0 then (.ch1, 2) else (.ch2, e.cfgSel) := by
  have hfirst : e.attribution = .ch1 := by rw [Engine.attribution_of_two hn, hl]; rfl
  induction k using Nat.twoStepInduction with
  | zero => exact Prod.ext hfirst hpend
  | one =>
    have hch : e.finish.attribution = .ch2 := by
      rw [Engine.attribution_of_two (e := e.finish) hn, Engine.finish_lastCh, hfirst]; rfl
    exact Prod.ext hch ((Engine.nextPending_of_two hn).trans (if_pos hfirst))
  | more k ih _ =>
    rw [Nat.add_mod_right, ← ih]
    exact ((Engine.sameSetup_finish_finish hn hl hpend hcfg).finish_iterate k).readRecord

/-- Settles O36: INV4 has code 2 pending first, and the reads go on as COMMIT alternates. -/
theorem alternationLaw : Obligations.AlternationLaw := by
  intro s ps k h4 hcfg hn hl hrst hk
  have hpend : s.eng.pending = 2 := (h4 hcfg hn).trans (if_pos hl)
  rw [List.getElem?_eq_getElem hk, readsOf_getElem? hcfg hrst (List.getElem?_eq_getElem hk),
    Engine.finish_iterate_of_two hn hl hpend hcfg]

/-! ## The two forms of the deserializer (R90 to R92) -/

/-- A shift doubles the register and adds the bit, modulo 2^24 (R90). -/
theorem shiftIn_eq (a : Sample) (b : Bool) : shiftIn a b = 2 * a + if b then 1 else 0 := by
  have happend : (shiftIn a b).toNat = (a.extractLsb' 0 23).toNat * 2 ^ 1 + (BitVec.ofBool b).toNat :=
    toNat_append_eq_add _ _
  apply BitVec.eq_of_toNat_eq
  rw [happend]
  cases b <;> simp <;> omega

/-- One bit into the register is one step of the recurrence modulo 2^24 (R90, R91). -/
theorem shiftIn_ofInt (a : Int) (b : Bool) :
    shiftIn (BitVec.ofInt 24 a) b = BitVec.ofInt 24 (2 * a + if b then 1 else 0) := by
  rw [shiftIn_eq, BitVec.ofInt_add, BitVec.ofInt_mul]
  cases b <;> rfl

/-- So are the bits of a whole list. -/
theorem deserialize_ofInt (a : Int) (bits : List Bool) :
    deserialize (BitVec.ofInt 24 a) bits = BitVec.ofInt 24 (accumulateFrom a bits) := by
  induction bits generalizing a with
  | nil => rfl
  | cons b bs ih => rw [deserialize, shiftIn_ofInt, ih, accumulateFrom]

/-- The recurrence unrolled for its start: each bit doubles it (R92). -/
theorem accumulateFrom_add (a c : Int) (bits : List Bool) :
    accumulateFrom (a + c) bits = accumulateFrom a bits + c * 2 ^ bits.length := by
  induction bits generalizing a c with
  | nil => simp [accumulateFrom]
  | cons b bs ih =>
    rw [accumulateFrom, accumulateFrom, List.length_cons, pow_succ',
      show 2 * (a + c) + (if b then 1 else 0) = 2 * a + (if b then 1 else 0) + 2 * c by ring, ih]
    ring

/-- From 0 the recurrence gives the unsigned number of the bits. -/
theorem accumulateFrom_zero_bounds (bits : List Bool) :
    0 ≤ accumulateFrom 0 bits ∧ accumulateFrom 0 bits < 2 ^ bits.length := by
  induction bits with
  | nil => decide
  | cons b bs ih =>
    have hstep : accumulateFrom 0 (b :: bs) = accumulateFrom 0 bs + (if b then 1 else 0) * 2 ^ bs.length := by
      rw [← accumulateFrom_add]
      rfl
    rw [hstep, List.length_cons, pow_succ']
    split <;> omega

/-- The seed differs from the bit itself by twice the bit (R91). -/
theorem seedInt_add (b : Bool) : seedInt b + 2 * (if b then 1 else 0) = if b then 1 else 0 := by
  cases b <;> rfl

/-- The recurrence keeps a frame within the range of a 24-bit two's-complement number (R92, R93). -/
theorem accumulate_bounds {bits : List Bool} (hlen : bits.length = 24) :
    -2 ^ 23 ≤ accumulate bits ∧ accumulate bits < 2 ^ 23 := by
  cases bits with
  | nil => cases hlen
  | cons b bs =>
    obtain ⟨hlow, hhigh⟩ := accumulateFrom_zero_bounds bs
    have hunroll := accumulateFrom_add 0 (seedInt b) bs
    rw [zero_add, Nat.succ.inj hlen] at hunroll
    rw [Nat.succ.inj hlen] at hhigh
    rw [accumulate, hunroll, seedInt]
    split <;> omega

/-- The register holds the recurrence modulo 2^24: the seed's -1 and the sampled 1 differ by 2, and after 23 more bits by
2^24 (R92). -/
theorem deserialize_eq_ofInt_accumulate {bits : List Bool} (hlen : bits.length = 24) :
    deserialize 0 bits = BitVec.ofInt 24 (accumulate bits) := by
  cases bits with
  | nil => cases hlen
  | cons b bs =>
    have hshift : deserialize 0 (b :: bs) = BitVec.ofInt 24 (accumulateFrom 0 (b :: bs)) := deserialize_ofInt 0 _
    have hseed := accumulateFrom_add (seedInt b) (2 * if b then 1 else 0) bs
    rw [seedInt_add, Nat.succ.inj hlen] at hseed
    rw [hshift, accumulateFrom, mul_zero, zero_add, hseed, BitVec.ofInt_add, accumulate]
    cases b <;> simp

/-- Settles O35: a number in range is the value of its word, and sign extension keeps that value. -/
theorem accumulatorFormsAgree : Obligations.AccumulatorFormsAgree := by
  intro bits hlen
  obtain ⟨hlow, hhigh⟩ := accumulate_bounds hlen
  have hvalue : accumulate bits = (deserialize 0 bits).toInt := by
    rw [deserialize_eq_ofInt_accumulate hlen, BitVec.toInt_ofInt_eq_self (by decide) hlow hhigh]
  exact ⟨hvalue, (BitVec.toInt_signExtend_of_le (by decide)).trans hvalue.symm⟩

end Sys2Proof.Machine
end

section
/-!
PROOFS. The family of the wire sequencer (42_wire_sequencer.md): its ticks one by one (R107 to R112), and a whole read
(R115 to R120). During a read the engine tells how long ago its POLL was accepted: the levels of `sck` begun so far, each of
`d + 1` ticks, less the ticks that `wait` still counts (`Engine.AtTick`). `Engine.InRead` adds to it the bits sampled so far,
and every tick before COMMIT keeps it (`Engine.InRead.advance`); so a run is in the read up to the COMMIT tick, and then it has
done what the transaction does (`blockRun_read`). The waveform, the timing and the agreement are read off from that.
-/
namespace Sys2Proof.Machine

/-! ## The ticks one by one -/

/-- In a read phase the block's tick is its own, whatever the command port shows (R20, R21). -/
theorem engineTick_of_busy {s : State} (hrst : s.pins.rst = false) (hbusy : s.eng.phase.ready = false) :
    engineTick s = .next (s.withEngine (s.eng.advance s.pins.dout)) := by
  simp [engineTick, hrst, exec_of_busy _ hbusy]

/-- POLL reads where its gate is open (R88). -/
theorem Engine.poll_of_gate_open {e : Engine} (hp : e.phase = .idle) : e.poll false = e.readStart := by
  simp [Engine.poll, hp]

/-- Settles O19: the gate is open, and the read start is written out. -/
theorem pollStartsRead : Obligations.PollStartsRead := by
  intro x s hp hlow
  rw [exec_poll_of_ready x (by rw [hp]; rfl), hlow, Engine.poll_of_gate_open hp]
  rfl

/-- That ticks of a level are left, said of the number of them. -/
theorem wait_pos_iff (w : Byte) : 0 < w ↔ 0 < w.toNat := BitVec.lt_def

/-- That data pulses are left, said of their number. -/
theorem bit_lt_last_iff (i : Fin 24) : i < 23 ↔ i.val < 23 := Fin.lt_def

/-- Settles O25: RD_HI counts down or samples. -/
theorem dataPulseHighTick : Obligations.DataPulseHighTick := by
  intro s hrst hp
  rw [engineTick_of_busy hrst (by rw [hp]; rfl), Engine.advance_rdHi _ hp]
  rcases s.eng.tickRdHi_cases s.pins.dout with ⟨hw, he⟩ | ⟨hw, he⟩ <;> rw [he]
  · rw [if_pos ((wait_pos_iff _).1 hw)]; rfl
  · rw [if_neg (mt (wait_pos_iff _).2 hw)]; rfl

/-- Settles O26: RD_LO counts down, or begins the next pulse, of the data or of the selector. -/
theorem dataPulseLowTick : Obligations.DataPulseLowTick := by
  intro s hrst hp
  rw [engineTick_of_busy hrst (by rw [hp]; rfl), Engine.advance_rdLo _ hp]
  rcases s.eng.tickRdLo_cases with ⟨hw, he⟩ | ⟨hw, hb, he⟩ | ⟨hw, hb, he⟩ <;> rw [he]
  · rw [if_pos ((wait_pos_iff _).1 hw)]; rfl
  · rw [if_neg (mt (wait_pos_iff _).2 hw), if_pos ((bit_lt_last_iff _).1 hb)]; rfl
  · rw [if_neg (mt (wait_pos_iff _).2 hw), if_neg (mt (bit_lt_last_iff _).2 hb)]; rfl

/-- Settles O27: TR_HI counts down or falls; TR_LO counts down, or begins the next selector pulse, or ends the frame. -/
theorem selectorPulseTicks : Obligations.SelectorPulseTicks := by
  intro s hrst
  refine ⟨fun hp => ?_, fun hp => ?_⟩
  · rw [engineTick_of_busy hrst (by rw [hp]; rfl), Engine.advance_trHi _ hp]
    rcases s.eng.tickTrHi_cases with ⟨hw, he⟩ | ⟨hw, he⟩ <;> rw [he]
    · rw [if_pos ((wait_pos_iff _).1 hw)]; rfl
    · rw [if_neg (mt (wait_pos_iff _).2 hw)]; rfl
  · rw [engineTick_of_busy hrst (by rw [hp]; rfl), Engine.advance_trLo _ hp]
    rcases s.eng.tickTrLo_cases with ⟨hw, he⟩ | ⟨hw, hi, he⟩ | ⟨hw, hi, he⟩ <;> rw [he]
    · rw [if_pos ((wait_pos_iff _).1 hw)]; rfl
    · rw [if_neg (mt (wait_pos_iff _).2 hw), if_pos (BitVec.lt_def.1 hi)]; rfl
    · rw [if_neg (mt (wait_pos_iff _).2 hw), if_neg (mt BitVec.lt_def.2 hi)]; rfl

/-- Settles O28: without an offer the block's tick is its own, and a waiting phase only lets the strobe fall. -/
theorem waitingTickOnlyDropsStrobe : Obligations.WaitingTickOnlyDropsStrobe := by
  intro s hrst hv hr
  simp only [engineTick, hrst, hv, Engine.advance_of_ready _ hr, Bool.false_eq_true, if_false]
  rfl

/-! ## The waveform (R115, R117) -/

/-- Within the frame `sck` is high in the levels of even number, counted from 0 and each of `d + 1` ticks. -/
theorem sckAt_of_level {n : SelCode} {d : Byte} {k l : Nat} (hl : l < 2 * framePulses n)
    (hlow : l * (d.toNat + 1) < k) (hhigh : k ≤ (l + 1) * (d.toNat + 1)) : sckAt n d k = decide (l % 2 = 0) := by
  have hlevel : (k - 1) / (d.toNat + 1) = l := Nat.div_eq_of_lt_le (by omega) (by omega)
  have hframe : k ≤ 2 * framePulses n * (d.toNat + 1) := hhigh.trans (Nat.mul_le_mul_right _ hl)
  have hone : 1 ≤ k := by omega
  simp [sckAt, hlevel, hframe, hone]

/-- After the frame's last level `sck` is low. -/
theorem sckAt_of_after {n : SelCode} {d : Byte} {k : Nat} (h : 2 * framePulses n * (d.toNat + 1) < k) :
    sckAt n d k = false := by
  simp [sckAt, Nat.not_le.2 h]

/-- Settles O33: pulse `j` is the levels `2j` and `2j + 1`. -/
theorem pulseTimes : Obligations.PulseTimes := by
  intro n d j k
  have hframe : framePulses n = 24 + n.toNat := rfl
  have hfall : fallTick d j = 1 + (2 * j + 1) * (d.toNat + 1) := rfl
  have hnext : riseTick d (j + 1) = 1 + (2 * j + 1 + 1) * (d.toNat + 1) := rfl
  refine ⟨⟨?_, ?_⟩, fun hj hlow hhigh => ?_, fun hj hlow hhigh => ?_, fun h => ?_⟩
  · rw [hfall, riseTick, Nat.succ_mul]; omega
  · rw [hfall, hnext, Nat.succ_mul (2 * j + 1)]; omega
  · unfold riseTick at hlow
    rw [sckAt_of_level (l := 2 * j) (by omega) (by omega) (by omega)]
    simp
  · rw [sckAt_of_level (l := 2 * j + 1) (by omega) (by omega) (by omega)]
    simp
  · rw [riseTick, ← hframe] at h
    exact sckAt_of_after (by omega)

/-! ## Where a read is -/

/-- The levels of `sck` that a read has begun so far: two a pulse, and of the last pulse only one while `sck` is high
(R115). -/
def Engine.levelsBegun (e : Engine) : Nat := 2 * e.edgesMade - e.sck.toNat

/-- The read's POLL was accepted `k` ticks ago: since then the levels begun have passed, each of `cfg_dly + 1` ticks, but for
the ticks that `wait` still counts; and COMMIT is one tick later (R106, R115, R118). -/
abbrev Engine.AtTick (k : Nat) (e : Engine) : Prop :=
  k + e.wait.toNat = e.levelsBegun * (e.cfgDly.toNat + 1) + if e.phase = .commit then 1 else 0

/-- While a level is timed at least one pulse has risen, and no more than the frame has (R69, INV7). -/
theorem Engine.edgesMade_bounds {e : Engine} (ht : e.phase.timed = true) (h7 : e.Inv7) :
    1 ≤ e.edgesMade ∧ e.edgesMade ≤ framePulses e.pending := by
  cases hp : e.phase with
  | rdHi | rdLo =>
    have hbit := e.bitIdx.isLt
    simp only [Engine.edgesMade, hp, framePulses, Config.sampleBits]
    omega
  | trHi | trLo =>
    have hpulse : e.pulseIdx.toNat ≤ e.pending.toNat := (h7 (by simp [hp])).2
    simp only [Engine.edgesMade, hp, framePulses, Config.sampleBits]
    omega
  | unconf | idle | pdown | commit => simp [hp, Phase.timed] at ht

/-- In a timed phase a tick makes an edge where it raises `sck`, and only there. -/
theorem Engine.ReadTick.edgesMade {e e' : Engine} (he : e.ReadTick e') (ht : e.phase.timed = true) (h5 : e.Inv5)
    (h7 : e.Inv7) : e'.edgesMade = if !e.sck && e'.sck then e.edgesMade + 1 else e.edgesMade := by
  have hchip := he.edges (c := { Chip.reset with edges := e.edgesMade }) 0 h5 h7 rfl
  have hc : e.phase ≠ .commit := (Phase.busy_of_timed ht).2
  have hd : e.phase ≠ .pdown := fun hp => by simp [hp, Phase.timed] at ht
  rw [← hchip]
  simp [Chip.react, hc, hd, Chip.edgesAfter]

/-- In a timed phase a tick begins a level where it changes `sck`, and only there. -/
theorem Engine.ReadTick.levelsBegun {e e' : Engine} (he : e.ReadTick e') (ht : e.phase.timed = true) (h5 : e.Inv5)
    (h7 : e.Inv7) : e'.levelsBegun = if e'.sck = e.sck then e.levelsBegun else e.levelsBegun + 1 := by
  obtain ⟨hpos, _⟩ := Engine.edgesMade_bounds ht h7
  unfold Engine.levelsBegun
  rw [he.edgesMade ht h5 h7]
  cases e.sck <;> cases e'.sck <;> simp <;> omega

/-- A tick that ends a level and begins the next counts one on. -/
theorem Engine.AtTick.level {k : Nat} {ph : Phase} {b : Bool} {e e₁ : Engine} (hk : e.AtTick k)
    (hc : e.phase ≠ .commit) (hc' : ph ≠ .commit) (hw : e.wait = 0) (hd : e₁.cfgDly = e.cfgDly)
    (hl : (e₁.level ph b).levelsBegun = e.levelsBegun + 1) : (e₁.level ph b).AtTick (k + 1) := by
  have hzero : e.wait.toNat = 0 := by rw [hw]; rfl
  unfold Engine.AtTick at hk ⊢
  rw [if_neg hc] at hk
  rw [Engine.level_phase, if_neg hc', hl, Nat.succ_mul, Engine.level_wait, Engine.level_cfgDly, hd]
  omega

/-- In a timed phase every tick counts one on. -/
theorem Engine.ReadTick.atTick {k : Nat} {e e' : Engine} (he : e.ReadTick e') (ht : e.phase.timed = true) (h5 : e.Inv5)
    (h7 : e.Inv7) (hk : e.AtTick k) : e'.AtTick (k + 1) := by
  have hc : e.phase ≠ .commit := (Phase.busy_of_timed ht).2
  have hl := he.levelsBegun ht h5 h7
  cases he with
  | wait _ hw =>
    have hpred : (e.wait - 1).toNat + 1 = e.wait.toNat := by bv_omega
    rw [Engine.waitTick_sck, if_pos rfl] at hl
    unfold Engine.AtTick at hk ⊢
    rw [hl, Engine.waitTick_wait, Engine.waitTick_cfgDly, Engine.waitTick_phase]
    omega
  | sampleBit _ hp hw => exact hk.level hc (by simp) hw rfl (by simpa [h5.sck_eq, hp] using hl)
  | nextBit hp hw | firstSelector hp hw | selectorFalls hp hw | nextSelector hp hw =>
    exact hk.level hc (by simp) hw rfl (by simpa [h5.sck_eq, hp] using hl)
  | toCommit _ hw =>
    rw [Engine.quiet_sck, if_pos rfl] at hl
    unfold Engine.AtTick at hk ⊢
    rw [if_neg hc] at hk
    rw [hl]
    change k + 1 + e.wait.toNat = e.levelsBegun * (e.cfgDly.toNat + 1) + 1
    omega
  | finish hp => exact absurd hp hc

/-- A tick in a timed phase does not end the read. -/
theorem Engine.ReadTick.stays_busy {e e' : Engine} (he : e.ReadTick e') (ht : e.phase.timed = true) :
    e'.phase.ready = false ∧ e'.rspValid = false := by
  cases he with
  | wait => exact ⟨(Phase.busy_of_timed ht).1, rfl⟩
  | sampleBit | nextBit | firstSelector | selectorFalls | nextSelector | toCommit => exact ⟨rfl, rfl⟩
  | finish hp => exact absurd hp (Phase.busy_of_timed ht).2

/-! ## What a read has sampled -/

/-- The data bits that a read has sampled so far (R108); 0 outside a read. -/
def Engine.bitsTaken (e : Engine) : Nat :=
  match e.phase with
  | .rdHi => e.bitIdx.val
  | .rdLo => e.bitIdx.val + 1
  | .trHi => Config.sampleBits
  | .trLo => Config.sampleBits
  | .commit => Config.sampleBits
  | .unconf => 0
  | .idle => 0
  | .pdown => 0

/-- The bits sampled are shifted in one after the other (R90). -/
theorem deserialize_concat (a : Sample) (bits : List Bool) (b : Bool) :
    deserialize a (bits ++ [b]) = shiftIn (deserialize a bits) b := by
  induction bits generalizing a with
  | nil => rfl
  | cons c cs ih => exact ih (shiftIn a c)

/-- In a timed phase the last tick of a data pulse's high level samples, and no other tick does (R108 to R111). -/
theorem Engine.advance_acc (b : Bool) {e : Engine} (ht : e.phase.timed = true) :
    (e.phase = .rdHi ∧ e.wait = 0 ∧ (e.advance b).acc = shiftIn e.acc b ∧ (e.advance b).bitsTaken = e.bitIdx.val + 1) ∨
      ((e.advance b).acc = e.acc ∧ (e.advance b).bitsTaken = e.bitsTaken) := by
  obtain ⟨hbusy, hc⟩ := Phase.busy_of_timed ht
  rcases e.advance_cases b hbusy with ⟨_, _, he⟩ | ⟨hp, hw, he⟩ | ⟨hp, _, hb, he⟩ | ⟨hp, _, hb, he⟩ | ⟨hp, _, he⟩ |
    ⟨hp, _, _, he⟩ | ⟨hp, _, _, he⟩ | ⟨hp, _⟩
  · exact .inr (by rw [he]; exact ⟨rfl, rfl⟩)
  · exact .inl (by rw [he]; exact ⟨hp, by bv_omega, rfl, rfl⟩)
  · have hsucc : (e.bitIdx + 1).val = e.bitIdx.val + 1 := Fin.val_add_one_of_lt' (by omega)
    exact .inr (by rw [he]; exact ⟨rfl, by simp [Engine.bitsTaken, hp, hsucc]⟩)
  · have hlast : e.bitIdx.val = 23 := by omega
    exact .inr (by rw [he]; exact ⟨rfl, by simp [Engine.bitsTaken, hp, hlast, Config.sampleBits]⟩)
  · exact .inr (by rw [he]; exact ⟨rfl, by simp [Engine.bitsTaken, hp]⟩)
  · exact .inr (by rw [he]; exact ⟨rfl, by simp [Engine.bitsTaken, hp]⟩)
  · exact .inr (by rw [he]; exact ⟨rfl, by simp [Engine.bitsTaken, hp]⟩)
  · exact absurd hp hc

/-- A frame has 24 bits (R70). -/
@[simp] theorem frameBits_length (d : Byte) (ps : List Pins) : (frameBits d ps).length = 24 := by
  simp [frameBits, Config.sampleBits]

/-- Bit `j` of a frame is `dout_s` at its sample tick (R116). -/
theorem frameBits_getElem? {d : Byte} {ps : List Pins} {j : Nat} {q : Pins} (hj : j < 24)
    (hq : ps[sampleTick d j]? = some q) : (frameBits d ps)[j]? = some q.dout := by
  simp [frameBits, Config.sampleBits, hj, hq]

/-! ## The engine in a read -/

/-- The setup stays over two stretches. -/
theorem Engine.SameSetup.trans {a b c : Engine} (h : a.SameSetup b) (h' : b.SameSetup c) : a.SameSetup c where
  cfgNch := h'.cfgNch.trans h.cfgNch
  cfgSel := h'.cfgSel.trans h.cfgSel
  cfgDly := h'.cfgDly.trans h.cfgDly
  pending := h'.pending.trans h.pending
  lastCh := h'.lastCh.trans h.lastCh
  unconf := h'.unconf.trans h.unconf

/-- INV2 speaks of the setup only. -/
theorem Engine.Inv2.of_sameSetup {e e' : Engine} (h : e.Inv2) (hs : e.SameSetup e') : e'.Inv2 := by
  simpa [Engine.Inv2, hs.cfgSel, hs.pending, hs.unconf] using h

/-- The engine `k` ticks after it accepted, as `e₀`, the POLL of a read whose frame is `frame`, up to the COMMIT tick. -/
structure Engine.InRead (e₀ : Engine) (frame : List Bool) (k : Nat) (e : Engine) : Prop where
  setup : e₀.SameSetup e
  line : e.LineInv
  busy : e.phase.ready = false
  strobe : e.rspValid = false
  atTick : e.AtTick k
  acc : e.acc = deserialize 0 (frame.take e.bitsTaken)

/-- The tick of acceptance brings the engine into the read (R107). -/
theorem Engine.readStart_inRead {e₀ : Engine} (hp : e₀.phase = .idle) (frame : List Bool) :
    e₀.InRead frame 1 e₀.readStart where
  setup := ⟨rfl, rfl, rfl, rfl, rfl, by simp [hp]⟩
  line := Engine.lineInv_of_timed rfl (by simp) (BitVec.le_refl _) (by simp [Engine.Inv7])
  busy := rfl
  strobe := rfl
  atTick := by
    have hfirst : e₀.readStart.levelsBegun = 1 := rfl
    simp [Engine.AtTick, hfirst, Nat.add_comm]
  acc := rfl

section InRead
variable {e₀ e : Engine} {frame : List Bool} {k : Nat}

/-- At the end of a data pulse's high level it is that pulse's sample tick (R116). -/
theorem Engine.InRead.eq_sampleTick (h : e₀.InRead frame k e) (hp : e.phase = .rdHi) (hw : e.wait = 0) :
    k = sampleTick e₀.cfgDly e.bitIdx.val := by
  have hl : e.levelsBegun = 2 * e.bitIdx.val + 1 := by
    obtain ⟨h5, _⟩ := h.line
    simp [Engine.levelsBegun, Engine.edgesMade, h5.sck_eq, hp]
    omega
  have hk := h.atTick
  rw [Engine.AtTick, hl, hw, hp] at hk
  simpa [sampleTick, h.setup.cfgDly] using hk

/-- A tick of the read before COMMIT keeps the engine in the read, if its `dout_s` is the frame's bit where it samples. -/
theorem Engine.InRead.advance (h : e₀.InRead frame k e) (h2 : e₀.Inv2) (ht : e.phase.timed = true) {b : Bool}
    (hbit : ∀ j < 24, k = sampleTick e₀.cfgDly j → frame[j]? = some b) : e₀.InRead frame (k + 1) (e.advance b) := by
  have he := e.advance_readTick b h.busy
  obtain ⟨h5, _, h7, _⟩ := h.line
  obtain ⟨hbusy, hstrobe⟩ := he.stays_busy ht
  refine ⟨?_, he.lineInv (h2.of_sameSetup h.setup) h.line, hbusy, hstrobe, he.atTick ht h5 h7 h.atTick, ?_⟩
  · rcases he.sameSetup with ⟨_, hs⟩ | ⟨hp, _⟩
    · exact h.setup.trans hs
    · exact absurd hp (Phase.busy_of_timed ht).2
  · rcases e.advance_acc b ht with ⟨hp, hw, hacc, htaken⟩ | ⟨hacc, htaken⟩
    · have hb := hbit _ e.bitIdx.isLt (h.eq_sampleTick hp hw)
      have hold : e.bitsTaken = e.bitIdx.val := by simp [Engine.bitsTaken, hp]
      rw [hacc, htaken, List.take_add_one, hb, Option.toList_some, deserialize_concat, h.acc, hold]
    · rw [hacc, htaken, h.acc]

/-- In COMMIT the frame is whole: its levels are over, and all its bits are in the register. -/
theorem Engine.InRead.of_commit (h : e₀.InRead frame k e) (hp : e.phase = .commit) (hlen : frame.length = 24) :
    k = Machine.commitTick e₀.pending e₀.cfgDly ∧ e.sck = false ∧ e.wait = 0 ∧ e.acc = deserialize 0 frame := by
  obtain ⟨h5, _, _, _, hrest⟩ := h.line
  have hsck : e.sck = false := by simp [h5.sck_eq, hp]
  have hw := hrest hp
  have hl : e.levelsBegun = 2 * framePulses e.pending := by
    simp [Engine.levelsBegun, Engine.edgesMade, framePulses, hsck, hp]
  have hk := h.atTick
  rw [Engine.AtTick, hl, if_pos hp, hw, h.setup.cfgDly, h.setup.pending] at hk
  have htaken : e.bitsTaken = frame.length := by simp [Engine.bitsTaken, hp, hlen, Config.sampleBits]
  exact ⟨hk, hsck, hw, by rw [h.acc, htaken, List.take_length]⟩

/-- Before COMMIT the read is in one level of the frame, and `sck` is high in the levels of even number, counted from 0. -/
theorem Engine.InRead.level (h : e₀.InRead frame k e) (ht : e.phase.timed = true) :
    ∃ l < 2 * framePulses e₀.pending, l * (e₀.cfgDly.toNat + 1) < k ∧ k ≤ (l + 1) * (e₀.cfgDly.toNat + 1) ∧
      e.sck = decide (l % 2 = 0) := by
  obtain ⟨_, h6, h7, _⟩ := h.line
  obtain ⟨hpos, hle⟩ := Engine.edgesMade_bounds ht h7
  have hbegun : 0 < e.levelsBegun := by
    have hone := Bool.toNat_le e.sck
    unfold Engine.levelsBegun
    omega
  obtain ⟨l, hl⟩ := Nat.exists_eq_add_one.2 hbegun
  have hwait : e.wait.toNat ≤ e.cfgDly.toNat := h6
  have hk := h.atTick
  rw [Engine.AtTick, if_neg (Phase.busy_of_timed ht).2, hl] at hk
  rw [← h.setup.cfgDly, ← h.setup.pending]
  unfold Engine.levelsBegun at hl
  refine ⟨l, by omega, by rw [Nat.succ_mul] at hk; omega, by omega, ?_⟩
  cases hs : e.sck <;> simp [hs] at hl ⊢ <;> omega

/-- A read is over by its COMMIT tick, and that tick is COMMIT's (R118). -/
theorem Engine.InRead.commit_iff (h : e₀.InRead frame k e) (hlen : frame.length = 24) :
    k ≤ Machine.commitTick e₀.pending e₀.cfgDly ∧
      (e.phase = .commit ↔ k = Machine.commitTick e₀.pending e₀.cfgDly) := by
  by_cases hp : e.phase = .commit
  · obtain ⟨hk, _⟩ := h.of_commit hp hlen
    exact ⟨hk.le, iff_of_true hp hk⟩
  · obtain ⟨l, hl, _, hhigh, _⟩ := h.level (Phase.timed_of_busy h.busy hp)
    have hlt : k < Machine.commitTick e₀.pending e₀.cfgDly :=
      Nat.lt_succ_of_le (hhigh.trans (Nat.mul_le_mul_right _ hl))
    exact ⟨hlt.le, iff_of_false hp hlt.ne⟩

/-- During a read `sck` follows the waveform (R115, R117). -/
theorem Engine.InRead.sck_eq (h : e₀.InRead frame k e) (hlen : frame.length = 24) :
    e.sck = sckAt e₀.pending e₀.cfgDly k := by
  by_cases hp : e.phase = .commit
  · obtain ⟨hk, hsck, _⟩ := h.of_commit hp hlen
    rw [hsck, sckAt_of_after (by rw [hk]; exact Nat.lt_succ_self _)]
  · obtain ⟨l, hl, hlow, hhigh, hsck⟩ := h.level (Phase.timed_of_busy h.busy hp)
    rw [hsck, sckAt_of_level hl hlow hhigh]

/-- FINISH gives what the transaction gives for the frame's word (R87, R114, R120). -/
theorem Engine.InRead.finish_eq (h : e₀.InRead frame k e) (hp : e.phase = .commit) (hlen : frame.length = 24) :
    e.finish = e₀.afterRead (deserialize 0 frame) := by
  obtain ⟨_, hsck, hw, hacc⟩ := h.of_commit hp hlen
  have hch : e.attribution = e₀.attribution := h.setup.finish.lastCh
  have hsel : e.nextPending = e₀.nextPending := h.setup.finish.pending
  rw [Engine.finish_eq hch hsel, hacc, hsck, hw, h.setup.cfgNch, h.setup.cfgSel, h.setup.cfgDly]
  rfl

end InRead

/-! ## A whole run of a read -/

/-- From acceptance to the response: the engine is in the read, or at the response tick it has done what the transaction does
for the frame's word. -/
def Engine.ReadAt (e₀ : Engine) (frame : List Bool) (k : Nat) (e : Engine) : Prop :=
  e₀.InRead frame k e ∨ (k = responseTick e₀.pending e₀.cfgDly ∧ e = e₀.afterRead (deserialize 0 frame))

/-- A tick of the read goes on with it or ends it. -/
theorem Engine.InRead.advance_readAt {e₀ e : Engine} {frame : List Bool} {k : Nat} (h : e₀.InRead frame k e) (h2 : e₀.Inv2)
    (hlen : frame.length = 24) {b : Bool} (hbit : ∀ j < 24, k = sampleTick e₀.cfgDly j → frame[j]? = some b) :
    e₀.ReadAt frame (k + 1) (e.advance b) := by
  by_cases hp : e.phase = .commit
  · obtain ⟨hk, _⟩ := h.of_commit hp hlen
    rw [Engine.advance_commit _ hp, h.finish_eq hp hlen]
    exact .inr ⟨by rw [hk]; rfl, rfl⟩
  · exact .inl (h.advance h2 (Phase.timed_of_busy h.busy hp) hbit)

/-- The rest of a read runs, whatever the ports show but `rst`: `pre` are the port levels from acceptance so far. -/
theorem blockRun_readAt {e₀ : Engine} (h2 : e₀.Inv2) (pre ps : List Pins) {s : State} (hrst : ∀ q ∈ ps, q.rst = false)
    (hk : (pre ++ ps).length ≤ responseTick e₀.pending e₀.cfgDly)
    (h : e₀.ReadAt (frameBits e₀.cfgDly (pre ++ ps)) pre.length s.eng) :
    ∃ t, blockRun ps s = .next t ∧ e₀.ReadAt (frameBits e₀.cfgDly (pre ++ ps)) (pre ++ ps).length t.eng := by
  induction ps generalizing pre s with
  | nil => exact ⟨s, rfl, by simpa using h⟩
  | cons q qs ih =>
    obtain ⟨hq, hqs⟩ := List.forall_mem_cons.1 hrst
    rcases h with h | ⟨hdone, _⟩
    · have htick : blockTick q s = .next ((s.drive q).withEngine (s.eng.advance q.dout)) :=
        engineTick_of_busy (s := s.drive q) hq h.busy
      have hnext : e₀.ReadAt (frameBits e₀.cfgDly (pre ++ q :: qs)) (pre.length + 1) (s.eng.advance q.dout) :=
        h.advance_readAt h2 (by simp) fun j hj hsample => frameBits_getElem? hj (by simp [← hsample])
      rw [blockRun, htick, andThen_next]
      rw [List.append_cons] at hk hnext ⊢
      exact ih (pre ++ [q]) hqs hk (by simpa using hnext)
    · rw [List.length_append, List.length_cons] at hk
      omega

/-- A reading POLL and the ticks after it, up to its response: R107, then the rest of the read. -/
theorem blockRun_read {s : State} {x : BitVec 28} {p : Pins} {ps : List Pins} (h2 : s.eng.Inv2) (hp : s.eng.phase = .idle)
    (hrst : p.rst = false) (hv : p.cmdValid = true) (hx : decode p.cmdData = .poll x) (hlow : p.dout = false)
    (hps : ∀ q ∈ ps, q.rst = false) (hk : (p :: ps).length ≤ responseTick s.eng.pending s.eng.cfgDly) :
    ∃ t, blockRun (p :: ps) s = .next t ∧
      s.eng.ReadAt (frameBits s.eng.cfgDly (p :: ps)) (p :: ps).length t.eng := by
  have hready : (s.drive p).eng.phase.ready = true := by rw [State.drive_eng, hp]; rfl
  have htick : blockTick p s = .next ((s.drive p).withEngine s.eng.readStart) := by
    have hpoll := exec_poll_of_ready x hready
    rw [State.drive_pins, State.drive_eng, hlow, Engine.poll_of_gate_open hp] at hpoll
    simpa [blockTick, engineTick, hrst, hv, hx] using hpoll
  rw [blockRun, htick, andThen_next]
  exact blockRun_readAt h2 [p] ps hps hk (.inl (Engine.readStart_inRead hp _))

/-- At transaction level a POLL whose gate is open reads its word (R87). -/
theorem transaction_poll_of_gate_open (x : BitVec 28) (w : Sample) {s : State} (hp : s.eng.phase = .idle)
    (hlow : s.pins.dout = false) : transaction (.poll x) w s = .next (s.withEngine (s.eng.afterRead w)) := by
  have hready : s.eng.phase.ready = true := by rw [hp]; rfl
  have hread : s.eng.pollTransaction s.pins.dout w = s.eng.afterRead w := if_pos ⟨hp, hlow⟩
  exact (whenReady_of_ready _ hready).trans (by rw [hread])

/-- Settles O30: at the response tick the read is over, as the transaction leaves it. -/
theorem readAgreesWithTransaction : Obligations.ReadAgreesWithTransaction := by
  intro s x p ps h2 hp hrst hv hx hlow hps hk
  obtain ⟨t, ht, hread⟩ := blockRun_read h2 hp hrst hv hx hlow hps hk.le
  refine ⟨t, ht, ?_⟩
  rcases hread with h | ⟨_, he⟩
  · obtain ⟨hle, _⟩ := h.commit_iff (by simp)
    exact absurd (hk ▸ hle) (Nat.not_succ_le_self _)
  · rw [transaction_poll_of_gate_open x _ (s := s.drive p) hp hlow, he]
    exact ⟨rfl, rfl, rfl, rfl, rfl, rfl⟩

/-- Settles O31: in the read `sck` follows the waveform, and after it both are low. -/
theorem readWaveform : Obligations.ReadWaveform := by
  intro s x p ps h2 hp hrst hv hx hlow hps hk
  obtain ⟨t, ht, hread⟩ := blockRun_read h2 hp hrst hv hx hlow hps hk
  refine ⟨t, ht, ?_⟩
  rcases hread with h | ⟨hdone, he⟩
  · exact h.sck_eq (by simp)
  · rw [he, hdone, sckAt_of_after (by unfold responseTick; omega)]
    rfl

/-- Settles O32: the read is in COMMIT at its last tick, and the response tick is the one after. -/
theorem readResponseTiming : Obligations.ReadResponseTiming := by
  intro s x p ps h2 hp hrst hv hx hlow hps hk
  obtain ⟨t, ht, hread⟩ := blockRun_read h2 hp hrst hv hx hlow hps hk
  refine ⟨t, ht, ?_⟩
  rcases hread with h | ⟨hdone, he⟩
  · obtain ⟨hle, hcommit⟩ := h.commit_iff (by simp)
    have hbefore : (p :: ps).length ≠ responseTick s.eng.pending s.eng.cfgDly := (Nat.lt_succ_of_le hle).ne
    exact ⟨hcommit, iff_of_false (by simp [h.strobe]) hbefore, iff_of_false (by simp [Engine.cmdReady, h.busy]) hbefore⟩
  · have hafter : (p :: ps).length ≠ commitTick s.eng.pending s.eng.cfgDly := by
      rw [hdone]
      exact Nat.succ_ne_self _
    rw [he]
    exact ⟨iff_of_false nofun hafter, iff_of_true rfl hdone, iff_of_true rfl hdone⟩

end Sys2Proof.Machine
end

section
/-!
PROOFS. The family of POWER_DOWN and POWER_UP (43_cmd_power.md): each command phase by phase (R123 to R126), and the round
trip from IDLE (R130).
-/
namespace Sys2Proof.Machine

/-! ## The commands phase by phase (R123 to R126) -/

/-- Where a command is accepted, POWER_DOWN is its engine function (R20). -/
theorem exec_powerDown_of_ready (x : BitVec 28) {s : State} (h : s.eng.phase.ready = true) :
    exec (.powerDown x) s = .next (s.withEngine s.eng.powerDown) :=
  whenReady_of_ready _ h

/-- Where a command is accepted, POWER_UP is its engine function (R20). -/
theorem exec_powerUp_of_ready (x : BitVec 28) {s : State} (h : s.eng.phase.ready = true) :
    exec (.powerUp x) s = .next (s.withEngine s.eng.powerUp) :=
  whenReady_of_ready _ h

/-- POWER_DOWN raises the clock line in IDLE (R123). -/
theorem Engine.powerDown_of_idle {e : Engine} (hp : e.phase = .idle) :
    e.powerDown = { e with sck := true, phase := .pdown }.respond statusOk 0 := by
  simpa [hp] using e.powerDown_cases

/-- POWER_DOWN has nothing to do in PDOWN (R126). -/
theorem Engine.powerDown_of_pdown {e : Engine} (hp : e.phase = .pdown) : e.powerDown = e.respond statusOk 0 := by
  simpa [hp] using e.powerDown_cases

/-- POWER_DOWN is rejected in UNCONF (R126). -/
theorem Engine.powerDown_of_unconf {e : Engine} (hp : e.phase = .unconf) : e.powerDown = e.reject := by
  simpa [hp] using e.powerDown_cases

/-- POWER_UP lowers the clock line in PDOWN (R124). -/
theorem Engine.powerUp_of_pdown {e : Engine} (hp : e.phase = .pdown) :
    e.powerUp = { e with sck := false, phase := .idle }.respond statusOk 0 := by
  simpa [hp] using e.powerUp_cases

/-- POWER_UP has nothing to do in IDLE (R126). -/
theorem Engine.powerUp_of_idle {e : Engine} (hp : e.phase = .idle) : e.powerUp = e.respond statusOk 0 := by
  simpa [hp] using e.powerUp_cases

/-- POWER_UP is rejected in UNCONF (R126). -/
theorem Engine.powerUp_of_unconf {e : Engine} (hp : e.phase = .unconf) : e.powerUp = e.reject := by
  simpa [hp] using e.powerUp_cases

/-- Settles O22: in each accepting phase the command is its engine function, written out for that phase. -/
theorem powerDownEffect : Obligations.PowerDownEffect := by
  intro x s
  refine ⟨fun hp => ?_, fun hp => ?_, fun hp => ?_⟩
  · rw [exec_powerDown_of_ready x (by rw [hp]; rfl), Engine.powerDown_of_idle hp]
    rfl
  · rw [exec_powerDown_of_ready x (by rw [hp]; rfl), Engine.powerDown_of_pdown hp]
    rfl
  · rw [exec_powerDown_of_ready x (by rw [hp]; rfl), Engine.powerDown_of_unconf hp]
    rfl

/-- Settles O23: in each accepting phase the command is its engine function, written out for that phase. -/
theorem powerUpEffect : Obligations.PowerUpEffect := by
  intro x s
  refine ⟨fun hp => ?_, fun hp => ?_, fun hp => ?_⟩
  · rw [exec_powerUp_of_ready x (by rw [hp]; rfl), Engine.powerUp_of_pdown hp]
    rfl
  · rw [exec_powerUp_of_ready x (by rw [hp]; rfl), Engine.powerUp_of_idle hp]
    rfl
  · rw [exec_powerUp_of_ready x (by rw [hp]; rfl), Engine.powerUp_of_unconf hp]
    rfl

/-! ## The round trip (R130) -/

/-- POWER_UP takes back what POWER_DOWN did to an engine in IDLE with `sck` low: only the response is left (R130). -/
theorem Engine.powerUp_powerDown {e : Engine} (hp : e.phase = .idle) (hsck : e.sck = false) :
    e.powerDown.powerUp = e.respond statusOk 0 := by
  have hback : { e with sck := false, phase := .idle } = e := by rw [← hsck, ← hp]
  calc e.powerDown.powerUp
      = ({ e with sck := true, phase := .pdown }.respond statusOk 0).powerUp := by rw [Engine.powerDown_of_idle hp]
    _ = { e with sck := false, phase := .idle }.respond statusOk 0 := Engine.powerUp_of_pdown rfl
    _ = e.respond statusOk 0 := by rw [hback]

/-- Settles O24: in between the block is in PDOWN with `sck` high; then the engine is back. -/
theorem powerRoundTrip : Obligations.PowerRoundTrip := by
  intro x y s hp hsck
  have hdown := Engine.powerDown_of_idle hp
  refine ⟨s.withEngine s.eng.powerDown, s.withEngine s.eng.powerDown.powerUp,
    exec_powerDown_of_ready x (by rw [hp]; rfl), ?_, exec_powerUp_of_ready y ?_, ?_⟩
  · rw [State.withEngine_eng, hdown]; rfl
  · rw [State.withEngine_eng, hdown]; rfl
  · rw [Engine.powerUp_powerDown hp hsck]; rfl

end Sys2Proof.Machine
end

section
/-!
PROOFS. The host and its Channel Store (45_host_channel_store.md). The store's layer says once what a push, an average, a
calibrated value and a setter are; the host's layer says what ingest, TARE's loop and the calls on a store do.
The shape of R132 is then kept operation by operation, from PUSH up to the host's whole move in a step.
-/
namespace Sys2Proof.Machine

/-! ## The block's tick and the words offered -/

/-- Settles O10: every tick of the block puts an engine back into the state it came from. -/
theorem blockTickTouchesEngineOnly : Obligations.BlockTickTouchesEngineOnly := by
  intro s
  obtain ⟨e, he, _⟩ := engineTick_effect s
  exact ⟨e, he⟩

/-- The word of a POLL (R136). -/
theorem encode_poll_zero : encode (.poll 0) = (0x20000000 : Word) := by decide

/-- The word of a POWER_DOWN (R149). -/
theorem encode_powerDown_zero : encode (.powerDown 0) = (0x30000000 : Word) := by decide

/-- The word of a POWER_UP (R149). -/
theorem encode_powerUp_zero : encode (.powerUp 0) = (0x40000000 : Word) := by decide

/-- Settles O55: each of the four calls is an offer of its encoded command. -/
theorem hostCallsOfferTheirWord : Obligations.HostCallsOfferTheirWord := by
  intro h w
  refine ⟨?_, ?_, ?_, rfl⟩
  · rw [← encode_poll_zero]; rfl
  · rw [← encode_powerDown_zero]; rfl
  · rw [← encode_powerUp_zero]; rfl

/-! ## Rings (R132, R135) -/

/-- A push keeps the number of slots and the bound of the fill (R135). -/
theorem Ring.push_wf {cap : Nat} {r : Ring} (v : Int) (h : r.wf cap) : (r.push cap v).wf cap := by
  obtain ⟨hlen, _⟩ := h
  exact ⟨by simp [Ring.push_slots, hlen], Nat.min_le_right _ _⟩

/-- What a list already cut to the capacity has lost would be cut off behind newer samples too. -/
theorem take_append_take (n : Nat) (xs ys : List Int) : (xs ++ ys.take n).take n = (xs ++ ys).take n := by
  rw [List.take_append, List.take_append, List.take_take, Nat.min_eq_left (Nat.sub_le n xs.length)]

/-- Settles O46: a first push puts its sample between the later ones and the older contents. -/
theorem ringKeepsNewest : Obligations.RingKeepsNewest := by
  intro cap r vs hr
  induction vs generalizing r with
  | nil =>
    obtain ⟨hlen, hfill⟩ := hr
    simp [← hlen, hlen ▸ hfill]
  | cons v vs ih =>
    rw [List.foldl_cons, ih _ (Ring.push_wf v hr), Ring.push_slots, Ring.push_fill, take_append_take, List.reverse_cons,
      List.append_assoc, List.length_cons]
    congr 1
    omega

/-! ## AVERAGE (R138 to R141) -/

/-- AVERAGE on a channel without a ring is refused (R141). -/
theorem Store.average_of_no_ring {st : Store} {ch : Nat} (n : Nat) (h : st.ring? ch = none) :
    st.average ch n = .error (.noSuchChannel ch) := by
  simp [Store.average, h]

/-- AVERAGE of no slot is refused (R141). -/
theorem Store.average_zero {st : Store} {ch : Nat} {r : Ring} (h : st.ring? ch = some r) :
    st.average ch 0 = .error .averageOfNone := by
  simp [Store.average, h]

/-- AVERAGE of at least one slot of an existing channel (R138). -/
theorem Store.average_of_ring {st : Store} {ch n : Nat} {r : Ring} (h : st.ring? ch = some r) (hn : 1 ≤ min n st.cap) :
    st.average ch n = .ok (((r.slots.take (min n st.cap)).sum : Int) / (min n st.cap : Nat)) := by
  simp only [Store.average, h]
  exact if_neg (Nat.ne_of_gt hn)

/-- AVERAGE reads its count only through the clamp (R138). -/
theorem Store.average_congr {st : Store} {n m : Nat} (ch : Nat) (h : min n st.cap = min m st.cap) :
    st.average ch n = st.average ch m := by
  unfold Store.average
  rw [h]

/-- Settles O48: `Store.average_of_ring`. -/
theorem averageOfNewestSlots : Obligations.AverageOfNewestSlots := by
  intro st ch n r hr hn
  exact Store.average_of_ring hr hn

/-- Settles O49: both counts clamp to the capacity. -/
theorem averageSaturates : Obligations.AverageSaturates := by
  intro st ch n hn
  exact Store.average_congr ch (by rw [Nat.min_eq_right hn.le, Nat.min_self])

/-! ## The setters and calibration (R142, R143, R147) -/

/-- Settles O52: the setters' own equations; every other channel number falls through. -/
theorem settersWriteOneSlot : Obligations.SettersWriteOneSlot := by
  intro st ch f o
  refine ⟨rfl, rfl, rfl, rfl, fun h1 h2 => ⟨?_, ?_⟩⟩
  · simp [Store.setScale]
  · simp [Store.setOffset]

/-- SET_OFFSET leaves every average (R147). -/
@[simp] theorem Store.average_setOffset (st : Store) (ch : Nat) (o : Int) (c n : Nat) :
    (st.setOffset ch o).average c n = st.average c n := by
  unfold Store.setOffset
  split <;> rfl

/-- SET_SCALE leaves every average (R147). -/
@[simp] theorem Store.average_setScale (st : Store) (ch : Nat) (f : Rat) (c n : Nat) :
    (st.setScale ch f).average c n = st.average c n := by
  unfold Store.setScale
  split <;> rfl

/-- Channels 1 and 2 always have a calibration slot (R132, C4). -/
theorem Store.cal?_isSome {st : Store} {ch : Nat} (h : ch = 1 ∨ ch = 2) : ∃ c, st.cal? ch = some c := by
  rcases h with rfl | rfl
  · exact ⟨st.cal1, rfl⟩
  · exact ⟨st.cal2, rfl⟩

/-- SET_OFFSET writes the offset of its channel's slot (R147). -/
theorem Store.cal?_setOffset {st : Store} {ch : Nat} {c : Calibration} (o : Int) (h : st.cal? ch = some c) :
    (st.setOffset ch o).cal? ch = some { c with offset := o } := by
  unfold Store.cal? at h
  split at h <;> cases h <;> rfl

/-- SET_SCALE writes the scale of its channel's slot (R147). -/
theorem Store.cal?_setScale {st : Store} {ch : Nat} {c : Calibration} (f : Rat) (h : st.cal? ch = some c) :
    (st.setScale ch f).cal? ch = some { c with scale := f } := by
  unfold Store.cal? at h
  split at h <;> cases h <;> rfl

/-- TARE_CORRECTED takes the slot's offset off the average (R142). -/
theorem Store.tareCorrected_of_average {st : Store} {ch n : Nat} {a : Rat} {c : Calibration} (ha : st.average ch n = .ok a)
    (hc : st.cal? ch = some c) : st.tareCorrected ch n = .ok (a - c.offset) := by
  simp [Store.tareCorrected, ha, hc]

/-- CALIBRATED divides that by the slot's scale, and refuses the scale 0 (R143). -/
theorem Store.calibrated_of_average {st : Store} {ch n : Nat} {a : Rat} {c : Calibration} (ha : st.average ch n = .ok a)
    (hc : st.cal? ch = some c) :
    st.calibrated ch n = if c.scale = 0 then .error (.scaleZero ch) else .ok ((a - c.offset) / c.scale) := by
  simp [Store.calibrated, Store.tareCorrected_of_average ha hc, hc]

/-- With an offset and a scale set, CALIBRATED is their quotient (R143, R148). -/
theorem Store.calibrated_setScale_setOffset {st : Store} {ch n : Nat} {a : Rat} {f : Rat} (o : Int)
    (ha : st.average ch n = .ok a) (hch : ch = 1 ∨ ch = 2) (hf : f ≠ 0) :
    ((st.setOffset ch o).setScale ch f).calibrated ch n = .ok ((a - o) / f) := by
  obtain ⟨c, hc⟩ := st.cal?_isSome hch
  rw [Store.calibrated_of_average (by simpa using ha) (Store.cal?_setScale f (Store.cal?_setOffset o hc))]
  exact if_neg hf

/-- Settles O51: the average is untouched by the setters, and the slot holds what they wrote. -/
theorem calibrationLaws : Obligations.CalibrationLaws := by
  intro st ch n a o f ha hch hf
  refine ⟨?_, Store.calibrated_setScale_setOffset o ha hch hf, ?_⟩
  · obtain ⟨c, hc⟩ := st.cal?_isSome hch
    exact Store.tareCorrected_of_average (by simpa using ha) (Store.cal?_setOffset o hc)
  · simpa using Store.calibrated_setScale_setOffset 0 ha hch one_ne_zero

/-! ## Truncation toward zero (R151) -/

/-- Truncation is odd (R151). -/
theorem truncRat_neg (r : Rat) : truncRat (-r) = -truncRat r := by
  simp [truncRat, Int.neg_tdiv]

/-- From 0 on truncation is the floor (R151). -/
theorem truncRat_of_nonneg {r : Rat} (h : 0 ≤ r) : truncRat r = ⌊r⌋ := by
  rw [truncRat, Rat.floor_def', Int.tdiv_eq_ediv_of_nonneg (Rat.num_nonneg.2 h)]

/-- From 0 on the truncated rational lies in the unit interval below the rational (R151). -/
theorem truncRat_bounds {r : Rat} (h : 0 ≤ r) : 0 ≤ truncRat r ∧ (truncRat r : Rat) ≤ r ∧ r < truncRat r + 1 := by
  rw [truncRat_of_nonneg h]
  exact ⟨Int.floor_nonneg.2 h, Int.floor_le r, Int.lt_floor_add_one r⟩

/-- The two distances of R151, for a rational from 0 on. -/
theorem truncRat_abs_of_nonneg {r : Rat} (h : 0 ≤ r) : |(truncRat r : Rat)| ≤ |r| ∧ |r - truncRat r| < 1 := by
  obtain ⟨h0, hle, hlt⟩ := truncRat_bounds h
  have h0' : (0 : Rat) ≤ truncRat r := Int.cast_nonneg h0
  rw [abs_of_nonneg h0', abs_of_nonneg h, abs_of_nonneg (sub_nonneg.2 hle)]
  exact ⟨hle, by linarith⟩

/-- Settles O54: the sign's two cases, the negative one by oddness. -/
theorem truncationTowardZero : Obligations.TruncationTowardZero := by
  intro r
  have hdist : |(truncRat r : Rat)| ≤ |r| ∧ |r - truncRat r| < 1 := by
    rcases le_total 0 r with h | h
    · exact truncRat_abs_of_nonneg h
    · have hpos := truncRat_abs_of_nonneg (neg_nonneg.2 h)
      rwa [truncRat_neg, Int.cast_neg, abs_neg, abs_neg, ← neg_sub', abs_neg] at hpos
  refine ⟨hdist.1, hdist.2, fun h => (truncRat_bounds h).1, fun h => ?_⟩
  have hpos := (truncRat_bounds (neg_nonneg.2 h)).1
  rw [truncRat_neg] at hpos
  omega

/-! ## The host's calls on its store (R136, R141, R143, R144, R146) -/

/-- NO_DATA is ingested as it is: nothing changes (R136). -/
theorem HostAgent.ingest_noData (d : Word) (h : HostAgent) : h.ingest statusNoData d = .next (h, none) := rfl

/-- REJECTED has no meaning for POLL_AND_INGEST (R136). -/
theorem HostAgent.ingest_rejected (d : Word) (h : HostAgent) : h.ingest statusRejected d = .refused .pollRejected := rfl

/-- A channel's status is ingested by PUSH on that channel (R136). -/
theorem HostAgent.ingest_channel (ch : Channel) (d : Word) (h : HostAgent) : h.ingest ch.status d = h.push ch d := by
  cases ch <;> rfl

/-- PUSH of a response for a channel that has a ring, by R135 written out. -/
theorem HostAgent.push_of_ring {h : HostAgent} {st : Store} {ch : Channel} {r : Ring} (d : Word) (hst : h.store = some st)
    (hr : st.ring? ch.toNat = some r) :
    ∃ st', st.Pushed ch r d.toInt st' ∧ h.push ch d = .next ({ h with store := some st' }, some ch) := by
  obtain ⟨st', hpush, hpushed⟩ := Store.push_of_ring (sampleValue d) hr
  exact ⟨st', hpushed, by simp [HostAgent.push, hst, hpush]⟩

/-- Settles O47: the three statuses' equations of ingest, and PUSH on a channel with a ring. -/
theorem ingestFollowsStatus : Obligations.IngestFollowsStatus := by
  intro h st d ch r hst hr
  obtain ⟨st', hpushed, hpush⟩ := HostAgent.push_of_ring d hst hr
  exact ⟨h.ingest_noData d, ⟨st', hpushed, (h.ingest_channel ch d).trans hpush⟩, h.ingest_rejected d⟩

/-- A call that changes the store, where the change has a result. -/
theorem HostAgent.change_of_store {h : HostAgent} {st st' : Store} {f : Store → Except Refusal Store}
    (hst : h.store = some st) (hf : f st = .ok st') :
    h.change f = .next ({ h with store := some st' }.returned .done, none) := by
  simp [HostAgent.change, hst, hf, ofExcept]

/-- TARE's loop offers a POLL while ingests are missing (R144). -/
theorem HostAgent.tareLoop_of_lt {h : HostAgent} {st : Store} {n got : Nat} (ch : Nat) (hst : h.store = some st)
    (hgot : got < st.tareCount n) : h.tareLoop ch n got = h.offer (encode (.poll 0)) (.tare ch n got) := by
  simp [HostAgent.tareLoop, hst, hgot]

/-- TARE's loop ends once the ingests are made (R144). -/
theorem HostAgent.tareLoop_of_ge {h : HostAgent} {st : Store} {n got : Nat} (ch : Nat) (hst : h.store = some st)
    (hgot : st.tareCount n ≤ got) : h.tareLoop ch n got = h.change fun st => st.tareEnd ch n := by
  simp [HostAgent.tareLoop, hst, Nat.not_lt.2 hgot]

/-- TARE on a channel without a ring is refused (R146). -/
theorem HostAgent.tare_of_no_ring {h : HostAgent} {st : Store} {ch : Nat} (n : Nat) (hst : h.store = some st)
    (hr : st.ring? ch = none) : h.tare ch n = .refused (.noSuchChannel ch) := by
  simp [HostAgent.tare, hst, hr]

/-- TARE of a count of 0 is refused (R146). -/
theorem HostAgent.tare_zero {h : HostAgent} {st : Store} {ch : Nat} {r : Ring} (hst : h.store = some st)
    (hr : st.ring? ch = some r) : h.tare ch 0 = .refused .averageOfNone := by
  simp [HostAgent.tare, hst, hr]

/-- TARE on an existing channel with a count enters its loop with no ingest made (R144). -/
theorem HostAgent.tare_of_ring {h : HostAgent} {st : Store} {ch n : Nat} {r : Ring} (hst : h.store = some st)
    (hr : st.ring? ch = some r) (hn : 1 ≤ n) : h.tare ch n = h.tareLoop ch n 0 := by
  simp [HostAgent.tare, hst, hr, Nat.ne_of_gt hn]

/-- A store has at least one channel (R7). -/
theorem ChanCount.one_le_toNat (n : ChanCount) : 1 ≤ n.toNat := by
  cases n <;> decide

/-- A store has at most two channels (R7). -/
theorem ChanCount.toNat_le_two (n : ChanCount) : n.toNat ≤ 2 := by
  cases n <;> decide

/-- Of a well-formed store exactly the channels 1..NCH have a ring (R132). -/
theorem Store.ring?_eq_none_iff {st : Store} (h : st.wf) (ch : Nat) : st.ring? ch = none ↔ ch = 0 ∨ st.nch.toNat < ch := by
  obtain ⟨_, hlen, _⟩ := h
  cases ch with
  | zero => simp
  | succ k => simp [hlen]

/-- A channel in 1..NCH of a well-formed store has a ring (R132). -/
theorem Store.ring?_isSome {st : Store} {ch : Nat} (h : st.wf) (h1 : 1 ≤ ch) (hch : ch ≤ st.nch.toNat) :
    ∃ r, st.ring? ch = some r := by
  have hne : st.ring? ch ≠ none := by
    rw [ne_eq, Store.ring?_eq_none_iff h]
    omega
  exact Option.ne_none_iff_exists'.1 hne

/-- Settles O50: a channel outside 1..NCH has no ring; with a ring the count decides, then the scale. -/
theorem storeRefusals : Obligations.StoreRefusals := by
  intro st ch n hwf
  refine ⟨fun hout => ?_, fun h1 hch => ?_, fun h1 hch hn => ?_⟩
  · have hr := (Store.ring?_eq_none_iff hwf ch).2 hout
    exact ⟨Store.average_of_no_ring n hr, fun h hst => HostAgent.tare_of_no_ring n hst hr⟩
  · obtain ⟨r, hr⟩ := Store.ring?_isSome hwf h1 hch
    exact ⟨Store.average_zero hr, fun h hst => HostAgent.tare_zero hst hr⟩
  · obtain ⟨r, hr⟩ := Store.ring?_isSome hwf h1 hch
    obtain ⟨hcap, _, _⟩ := hwf
    have ha := Store.average_of_ring hr (le_min hn hcap)
    obtain ⟨c, hc⟩ := st.cal?_isSome (ch := ch) (by have := st.nch.toNat_le_two; omega)
    rw [Store.calibrated_of_average (by simpa using ha) (Store.cal?_setScale 0 hc)]
    exact if_pos rfl

/-- Settles O53: TARE's beginning, its loop, the two answers to its POLL, and its end. -/
theorem tareLoopAndEnd : Obligations.TareLoopAndEnd := by
  intro h st ch n got d hst
  have hoffer : ∀ k, k < n * st.nch.toNat →
      h.tareLoop ch n k = .next ({ h with offering := .tare ch n k }, some 0x20000000) := fun k hk => by
    rw [HostAgent.tareLoop_of_lt ch hst hk, encode_poll_zero]
    rfl
  refine ⟨fun r hr hn => ?_, hoffer got, rfl, fun c r hr => ?_, fun a hgot ha => ?_⟩
  · rw [HostAgent.tare_of_ring hst hr hn]
    exact hoffer 0 (Nat.mul_pos hn st.nch.one_le_toNat)
  · obtain ⟨st', hpushed, hpush⟩ := HostAgent.push_of_ring d hst hr
    exact ⟨st', hpushed, by simp [HostAgent.answer, HostAgent.ingest_channel, hpush]⟩
  · rw [HostAgent.tareLoop_of_ge ch hst hgot]
    exact HostAgent.change_of_store hst (by simp [Store.tareEnd, ha, truncRat])

/-! ## The shape of the store is kept (R131, R132) -/

/-- A ring starts with its CAP slots and none of them filled (R133). -/
theorem Ring.empty_wf (cap : Nat) : (Ring.empty cap).wf cap := ⟨List.length_replicate, Nat.zero_le cap⟩

/-- A store starts with its shape (R133). -/
theorem Store.initial_wf {cap : Nat} (nch : ChanCount) (h : 1 ≤ cap) : (Store.initial cap nch).wf := by
  refine ⟨h, by simp [Store.initial], fun r hr => ?_⟩
  rw [List.eq_of_mem_replicate hr]
  exact Ring.empty_wf cap

/-- PUSH keeps the shape: it puts a pushed ring in a ring's place (R135). -/
theorem Store.push_wf {st st' : Store} {ch : Channel} {v : Int} (h : st.wf) (hp : st.push ch v = some st') : st'.wf := by
  obtain ⟨hcap, hlen, hrings⟩ := h
  cases hr : st.ring? ch.toNat with
  | none => simp [Store.push, hr] at hp
  | some r =>
    have hmem : r ∈ st.rings := by cases ch <;> exact List.mem_of_getElem? hr
    simp only [Store.push, hr, Option.some.injEq] at hp
    subst hp
    refine ⟨hcap, by simp [hlen], fun q hq => ?_⟩
    rcases List.mem_or_eq_of_mem_set hq with hq | rfl
    · exact hrings q hq
    · exact Ring.push_wf v (hrings r hmem)

/-- SET_SCALE keeps the shape (R147). -/
theorem Store.setScale_wf {st : Store} (ch : Nat) (f : Rat) (h : st.wf) : (st.setScale ch f).wf := by
  unfold Store.setScale
  split <;> exact h

/-- SET_OFFSET keeps the shape (R147). -/
theorem Store.setOffset_wf {st : Store} (ch : Nat) (o : Int) (h : st.wf) : (st.setOffset ch o).wf := by
  unfold Store.setOffset
  split <;> exact h

/-- The end of TARE keeps the shape (R144). -/
theorem Store.tareEnd_wf {st st' : Store} {ch n : Nat} (h : st.wf) (ht : st.tareEnd ch n = .ok st') : st'.wf := by
  unfold Store.tareEnd at ht
  split at ht <;> cases ht
  exact Store.setOffset_wf ch _ h

/-- The store of a well-formed host has its shape. -/
theorem HostAgent.wf.store_wf {h : HostAgent} {st : Store} (hw : h.wf) (hst : h.store = some st) : st.wf := hw.1 st hst

/-- A well-formed host stays so with another store of that shape. -/
theorem HostAgent.wf.withStore {h : HostAgent} {st : Store} (hw : h.wf) (hst : st.wf) : { h with store := some st }.wf := by
  obtain ⟨_, hoff, howed⟩ := hw
  refine ⟨fun st' hst' => ?_, hoff, howed⟩
  cases hst'
  exact hst

/-- Offering a word keeps the host well-formed, where its purpose starts no store of capacity 0 (R131). -/
theorem HostAgent.offer_wf {w : Word} {k : Cont} {h : HostAgent} {r : HostAgent × Option Word} (hw : h.wf) (hk : k.wf = true)
    (hr : h.offer w k = .next r) : r.1.wf := by
  obtain ⟨hst, _, howed⟩ := hw
  cases hr
  exact ⟨hst, hk, howed⟩

/-- PUSH of a delivered sample keeps the host well-formed (R135). -/
theorem HostAgent.push_wf {ch : Channel} {d : Word} {h : HostAgent} {r : HostAgent × Option Channel} (hw : h.wf)
    (hr : h.push ch d = .next r) : r.1.wf := by
  unfold HostAgent.push at hr
  split at hr
  · cases hr
  · next st hst =>
    split at hr <;> cases hr
    next st' hpush => exact hw.withStore (Store.push_wf (hw.store_wf hst) hpush)

/-- Ingesting a response keeps the host well-formed (R136). -/
theorem HostAgent.ingest_wf {st : Status} {d : Word} {h : HostAgent} {r : HostAgent × Option Channel} (hw : h.wf)
    (hr : h.ingest st d = .next r) : r.1.wf := by
  unfold HostAgent.ingest at hr
  split_ifs at hr
  · cases hr
    exact hw
  · exact HostAgent.push_wf hw hr
  · exact HostAgent.push_wf hw hr

/-- So does every use of a captured response: a construct's OK starts a store of its capacity (R133). -/
theorem HostAgent.answer_wf {st : Status} {d : Word} {h h' : HostAgent} {k : Cont} (hw : h.wf) (hk : k.wf = true)
    (ha : h.answer st d k = .next h') : h'.wf := by
  cases k with
  | discard => cases ha; exact hw
  | deliver => cases ha; exact hw
  | construct cap nch =>
    simp only [HostAgent.answer] at ha
    split at ha <;> cases ha
    · exact hw.withStore (Store.initial_wf nch (of_decide_eq_true hk))
    · exact hw
  | ingest =>
    obtain ⟨r, hr, hk⟩ := andThen_eq_next ha
    cases hk
    exact HostAgent.ingest_wf hw hr
  | tare ch n got =>
    obtain ⟨r, hr, hk⟩ := andThen_eq_next ha
    cases hk
    exact HostAgent.ingest_wf hw hr

/-- So does capturing the response shown, since what it is for was owed (R22). -/
theorem HostAgent.capture_wf {e : Engine} {h h' : HostAgent} (hw : h.wf) (hc : h.capture e = .next h') : h'.wf := by
  unfold HostAgent.capture at hc
  split at hc
  · split at hc
    · cases hc
      exact hw
    · next k rest howed =>
      obtain ⟨hst, hoff, hall⟩ := hw
      rw [howed, List.forall_mem_cons] at hall
      exact HostAgent.answer_wf (h := { h with owed := rest }) ⟨hst, hoff, hall.2⟩ hall.1 hc
  · cases hc
    exact hw

/-- So does settling a tick, since what becomes owed was on offer (R20). -/
theorem hostSettle_wf {s : State} {h : HostAgent} (hw : s.host.wf) (hs : hostSettle s = .next h) : h.wf := by
  obtain ⟨a, ha, hk⟩ := andThen_eq_next hs
  obtain ⟨hst, hoff, howed⟩ := HostAgent.capture_wf hw ha
  cases hk
  split_ifs
  · exact ⟨hst, hoff, by simp⟩
  · exact ⟨hst, hoff, List.forall_mem_append.2 ⟨howed, by simpa using hoff⟩⟩
  · exact ⟨hst, hoff, howed⟩

/-- A call that computes a value keeps the host well-formed. -/
theorem HostAgent.compute_wf {f : Store → Except Refusal Rat} {h : HostAgent} {r : HostAgent × Option Word} (hw : h.wf)
    (hr : h.compute f = .next r) : r.1.wf := by
  unfold HostAgent.compute at hr
  split at hr
  · cases hr
  · obtain ⟨v, _, hk⟩ := andThen_eq_next hr
    cases hk
    exact hw

/-- So does a call that changes the store, if the change keeps the store's shape. -/
theorem HostAgent.change_wf {f : Store → Except Refusal Store} {h : HostAgent} {r : HostAgent × Option Word} (hw : h.wf)
    (hf : ∀ st st', st.wf → f st = .ok st' → st'.wf) (hr : h.change f = .next r) : r.1.wf := by
  unfold HostAgent.change at hr
  split at hr
  · cases hr
  · next st hst =>
    obtain ⟨st', hst', hk⟩ := andThen_eq_next hr
    cases hk
    refine hw.withStore (hf st st' (hw.store_wf hst) ?_)
    cases hfst : f st <;> rw [hfst] at hst' <;> cases hst'
    rfl

/-- A round of TARE keeps the host well-formed (R144). -/
theorem HostAgent.tareLoop_wf {ch n got : Nat} {h : HostAgent} {r : HostAgent × Option Word} (hw : h.wf)
    (hr : h.tareLoop ch n got = .next r) : r.1.wf := by
  unfold HostAgent.tareLoop at hr
  split at hr
  · cases hr
  · split at hr
    · exact HostAgent.offer_wf hw rfl hr
    · exact HostAgent.change_wf hw (fun _ _ => Store.tareEnd_wf) hr

/-- So does beginning TARE (R144). -/
theorem HostAgent.tare_wf {ch n : Nat} {h : HostAgent} {r : HostAgent × Option Word} (hw : h.wf)
    (hr : h.tare ch n = .next r) : r.1.wf := by
  unfold HostAgent.tare at hr
  split at hr
  · cases hr
  · split_ifs at hr
    exact HostAgent.tareLoop_wf hw hr

/-- construct keeps the host well-formed, since it refuses the capacity 0 (R131). -/
theorem HostAgent.construct_wf {a : ConstructArgs} {h : HostAgent} {r : HostAgent × Option Word} (hw : h.wf)
    (hr : h.construct a = .next r) : r.1.wf := by
  unfold HostAgent.construct at hr
  split at hr
  · cases hr
  · next hcap =>
    split at hr
    · exact HostAgent.offer_wf (k := .construct _ _) hw (decide_eq_true (Nat.pos_of_ne_zero hcap)) hr
    · cases hr

/-- Beginning any call keeps the host well-formed. -/
theorem HostAgent.begin_wf {c : HostCall} {h : HostAgent} {r : HostAgent × Option Word} (hw : h.wf)
    (hr : h.begin c = .next r) : r.1.wf := by
  cases c with
  | command w => exact HostAgent.offer_wf hw rfl hr
  | construct a => exact HostAgent.construct_wf hw hr
  | pollAndIngest => exact HostAgent.offer_wf hw rfl hr
  | average ch n => exact HostAgent.compute_wf hw hr
  | tareCorrected ch n => exact HostAgent.compute_wf hw hr
  | calibrated ch n => exact HostAgent.compute_wf hw hr
  | tare ch n => exact HostAgent.tare_wf hw hr
  | tareLoop ch n got => exact HostAgent.tareLoop_wf hw hr
  | setScale ch f =>
    refine HostAgent.change_wf hw (fun st st' hst h => ?_) hr
    cases h
    exact Store.setScale_wf ch f hst
  | setOffset ch o =>
    refine HostAgent.change_wf hw (fun st st' hst h => ?_) hr
    cases h
    exact Store.setOffset_wf ch o hst
  | powerDown => exact HostAgent.offer_wf hw rfl hr
  | powerUp => exact HostAgent.offer_wf hw rfl hr
  | pause ticks => cases hr; exact hw

/-- So does the host's next move. -/
theorem HostAgent.proceed_wf {h : HostAgent} {r : HostAgent × Option Word} (hw : h.wf) (hr : h.proceed = .next r) :
    r.1.wf := by
  unfold HostAgent.proceed at hr
  split at hr
  · cases hr
    exact hw
  · split at hr
    · cases hr
      exact hw
    · next c rest _ =>
      split at hr
      · exact HostAgent.begin_wf (h := { h with program := rest }) hw hr
      · cases hr
        exact hw

/-- The host of a step is the settled one, or the settled one after its next move. -/
theorem step_host_cases {s t : State} (h : step s = .next t) :
    ∃ a, hostSettle s = .next a ∧ (t.host = a ∨ ∃ r, a.proceed = .next r ∧ t.host = r.1) := by
  obtain ⟨u, _, hplat⟩ := step_eq_next h
  obtain ⟨v, hhost, hv⟩ := andThen_eq_next hplat
  obtain ⟨a, hsettle, hk⟩ := andThen_eq_next hhost
  cases hv
  refine ⟨a, hsettle, ?_⟩
  split at hk
  · cases hk
    exact .inl (by simp)
  · obtain ⟨r, hr, hw⟩ := andThen_eq_next hk
    cases hw
    exact .inr ⟨r, hr, by simp⟩

/-- Settles O45: settling keeps the shape, and so does the host's next move. -/
theorem storeShapeKept : Obligations.StoreShapeKept := by
  intro s t hw ht
  obtain ⟨a, hsettle, hhost⟩ := step_host_cases ht
  have ha : a.wf := hostSettle_wf hw hsettle
  rcases hhost with hheld | ⟨r, hr, hmoved⟩
  · rwa [hheld]
  · rw [hmoved]
    exact HostAgent.proceed_wf ha hr

end Sys2Proof.Machine
end

section
/-!
PROOFS. The chip's contract (R175, R183, R190, R191, R195): which ticks take the chip out of it and which bring it back. The
first layer says what a tick shows of the limits by the edge it makes; the second says when a tick makes an edge, and for how
many ticks the level it ends has stood.
-/
namespace Sys2Proof.Machine

/-! ## The limits a tick is held against -/

@[simp] theorem ticksTime_eq (n : Nat) : ticksTime n = n * Config.tTick := rfl
@[simp] theorem powerDownMet_iff (n : Nat) : powerDownMet n = true ↔ Config.tPd ≤ ticksTime n := decide_eq_true_iff
@[simp] theorem lowMet_iff (n : Nat) : lowMet n = true ↔ Config.tLoMin ≤ ticksTime n := decide_eq_true_iff
@[simp] theorem highMet_iff (n : Nat) :
    highMet n = true ↔ Config.tHiMin ≤ ticksTime n ∧ ticksTime n < Config.tHiMax :=
  (Bool.and_eq_true_iff ..).trans (and_congr decide_eq_true_iff decide_eq_true_iff)
@[simp] theorem dataMet_iff (n : Nat) :
    dataMet n = true ↔ Config.tDv + ticksTime Config.syncStages ≤ ticksTime n := decide_eq_true_iff

/-- A tick without an edge ends no level. -/
theorem edgeTimingMet_of_no_edge {e e' : Engine} (n : Nat) (h : e.sck = e'.sck) : edgeTimingMet e e' n = true := by
  simp [edgeTimingMet, h]

/-- A rise ends a low level. -/
theorem edgeTimingMet_of_rise {e e' : Engine} (n : Nat) (h : e.sck = false) (h' : e'.sck = true) :
    edgeTimingMet e e' n = lowMet n := by
  simp [edgeTimingMet, h, h']

/-- A fall ends a high level, and the data phase takes its bit there (R108). -/
theorem edgeTimingMet_of_fall {e e' : Engine} (n : Nat) (h : e.sck = true) (h' : e'.sck = false) :
    edgeTimingMet e e' n = true ↔ highMet n = true ∧ (e.phase = .rdHi → dataMet n = true) := by
  simp [edgeTimingMet, h, h', imp_iff_not_or]

/-! ## The chip's reaction -/

/-- A reset in a read phase leaves the contract (R183). -/
theorem Chip.react_inContract_of_cut {n : Nat} {e e' : Engine} {c : Chip} (h : e.phase.ready = false) :
    (c.react n true e e').inContract = false := by
  simp [Chip.react, Phase.reading, h]

/-- PDOWN ended by POWER_UP or by a reset: its length decides (R190, R195). -/
theorem Chip.react_inContract_of_wake {n : Nat} {rst : Bool} {e e' : Engine} {c : Chip} (hp : e.phase = .pdown)
    (hp' : e'.phase ≠ .pdown) : (c.react n rst e e').inContract = powerDownMet (c.levelTicks + 1) := by
  cases rst <;> simp [Chip.react, hp, hp', Phase.reading, Phase.ready]

/-- Outside COMMIT and PDOWN the level a tick ends decides (R175). -/
theorem Chip.react_inContract_of_level {n : Nat} {e e' : Engine} {c : Chip} (hc : e.phase ≠ .commit)
    (hp : e.phase ≠ .pdown) :
    (c.react n false e e').inContract = (c.inContract && edgeTimingMet e e' (c.levelTicks + 1)) := by
  simp [Chip.react, hc, hp]

/-- A rise: the low level it ends is held against its limit (R191). -/
theorem Chip.react_inContract_of_rise {n : Nat} {e e' : Engine} {c : Chip} (h5 : e.Inv5)
    (hp : e.phase = .rdLo ∨ e.phase = .trLo ∨ e.phase = .idle) (hs : e'.sck = true) :
    e.sck = false ∧
      ((c.react n false e e').inContract = true ↔ c.inContract = true ∧ lowMet (c.levelTicks + 1) = true) := by
  have hlow : e.sck = false := by rcases hp with hp | hp | hp <;> simp [h5.sck_eq, hp]
  have hc : e.phase ≠ .commit := by rcases hp with hp | hp | hp <;> simp [hp]
  have hd : e.phase ≠ .pdown := by rcases hp with hp | hp | hp <;> simp [hp]
  rw [Chip.react_inContract_of_level hc hd, edgeTimingMet_of_rise _ hlow hs, Bool.and_eq_true]
  exact ⟨hlow, .rfl⟩

/-- A tick without an edge that cuts no read short and does not end PDOWN leaves the contract as it was. -/
theorem Chip.react_inContract_of_no_edge {n : Nat} {rst : Bool} {e e' : Engine} {c : Chip}
    (hr : rst = true → e.phase.ready = true ∧ e.phase ≠ .pdown) (hd : e.phase = .pdown → e'.phase = .pdown)
    (hs : e.sck = e'.sck) : (c.react n rst e e').inContract = c.inContract := by
  rcases c.react_cases n rst e e' with ⟨h, hc⟩ | ⟨_, _, hc⟩ | ⟨_, _, _, hc⟩ | ⟨_, hp, hp', _⟩ | ⟨_, _, _, hc⟩
  · obtain ⟨hready, hp⟩ := hr h
    simp [hc, Phase.reading, hready, hp]
  · simp [hc]
  · rw [hc]
  · exact absurd (hd hp) hp'
  · simp [hc, edgeTimingMet_of_no_edge _ hs]

/-! ## The edges of the block's tick -/

/-- In a read an edge is made only at the last tick of its level (R106). -/
theorem Engine.ReadTick.wait_of_edge {e e' : Engine} (he : e.ReadTick e') (hs : e'.sck ≠ e.sck) : e.wait = 0 := by
  cases he with
  | wait => exact absurd rfl hs
  | finish => exact absurd rfl hs
  | sampleBit _ _ hw | nextBit _ hw | firstSelector _ hw | selectorFalls _ hw | nextSelector _ hw | toCommit _ hw =>
    exact hw

/-- A high level of a read falls when no tick of it is left (R108, R110). -/
theorem Engine.ReadTick.falls {e e' : Engine} (he : e.ReadTick e') (hp : e.phase = .rdHi ∨ e.phase = .trHi)
    (hw : e.wait = 0) : e'.sck = false := by
  cases he with
  | wait _ hpos => simp [hw] at hpos
  | sampleBit | selectorFalls => rfl
  | nextBit h | firstSelector h | nextSelector h | toCommit h | finish h => simp [h] at hp

/-- An accepted command that leaves PDOWN is a POWER_UP, which lowers the line (R124). -/
theorem Engine.CommandEffect.sck_of_wake {e e' : Engine} {m : Mnemonic} (he : e.CommandEffect m e') (hp : e.phase = .pdown)
    (hp' : e'.phase ≠ .pdown) : e'.sck = false := by
  cases he with
  | answer => exact absurd hp hp'
  | configure _ _ h | readStart h | powerDown h => simp [h] at hp
  | powerUp => rfl

/-- Leaving PDOWN lowers the line (R124, R181). -/
theorem State.TickEffect.sck_of_wake {s : State} {e : Engine} (he : s.TickEffect e) (hp : s.eng.phase = .pdown)
    (hp' : e.phase ≠ .pdown) : e.sck = false := by
  cases he with
  | reset => rfl
  | wait => exact absurd hp hp'
  | command _ _ _ hc => exact hc.sck_of_wake hp hp'
  | read _ hr => simp [hp, Phase.ready] at hr

/-- A reset lowers the line (R30). -/
theorem State.TickEffect.sck_of_reset {s : State} {e : Engine} (he : s.TickEffect e) (hrst : s.pins.rst = true) :
    e.sck = false := by
  cases he with
  | reset => rfl
  | wait h | command h | read h => simp [h] at hrst

/-- In a read phase without a reset the tick is one of the read's. -/
theorem State.TickEffect.readTick {s : State} {e : Engine} (he : s.TickEffect e) (hrst : s.pins.rst = false)
    (hr : s.eng.phase.ready = false) : s.eng.ReadTick e := by
  cases he with
  | reset h => simp [h] at hrst
  | wait _ h | command _ h => simp [h] at hr
  | read => exact Engine.advance_readTick _ hr

/-- A level of a read with no tick left to wait has stood for all of `cfg_dly + 1` with the tick that ends it (R106). -/
theorem State.LevelInStep.shown {s : State} (h : s.LevelInStep) (ht : s.eng.phase.timed = true) (hw : s.eng.wait = 0) :
    s.chip.levelTicks = s.eng.cfgDly.toNat := by
  simpa [hw] using h ht

/-! ## The contract's events -/

/-- The end of a high level of a read (R191). -/
theorem State.TickEffect.contract_of_high {s : State} {e : Engine} (he : s.TickEffect e) (n : Nat) (h : s.ChipInStep)
    (hrst : s.pins.rst = false) (hp : s.eng.phase = .rdHi ∨ s.eng.phase = .trHi) (hw : s.eng.wait = 0) :
    (s.chip.react n false s.eng e).inContract = true ↔ s.chip.inContract = true ∧
      highMet (s.eng.cfgDly.toNat + 1) = true ∧ (s.eng.phase = .rdHi → dataMet (s.eng.cfgDly.toNat + 1) = true) := by
  obtain ⟨⟨⟨_, _, _, _, h5, _⟩, _⟩, _, _, hlevel⟩ := h
  have ht : s.eng.phase.timed = true := by rcases hp with hp | hp <;> rw [hp] <;> rfl
  obtain ⟨hbusy, hc⟩ := Phase.busy_of_timed ht
  have hd : s.eng.phase ≠ .pdown := by rcases hp with hp | hp <;> simp [hp]
  have hfall := (he.readTick hrst hbusy).falls hp hw
  rw [Chip.react_inContract_of_level hc hd, Bool.and_eq_true, edgeTimingMet_of_fall _ (h5.2 (.inr hp)) hfall,
    hlevel.shown ht hw]

/-- The end of a low level of a read by a rise (R191). -/
theorem State.TickEffect.contract_of_low {s : State} {e : Engine} (he : s.TickEffect e) (n : Nat) (h : s.ChipInStep)
    (hrst : s.pins.rst = false) (hp : s.eng.phase = .rdLo ∨ s.eng.phase = .trLo) (hs : e.sck = true) :
    (s.chip.react n false s.eng e).inContract = true ↔
      s.chip.inContract = true ∧ lowMet (s.eng.cfgDly.toNat + 1) = true := by
  obtain ⟨⟨⟨_, _, _, _, h5, _⟩, _⟩, _, _, hlevel⟩ := h
  have ht : s.eng.phase.timed = true := by rcases hp with hp | hp <;> rw [hp] <;> rfl
  obtain ⟨hlow, hiff⟩ := Chip.react_inContract_of_rise (n := n) (c := s.chip) h5 (hp.imp_right .inl) hs
  have hw := (he.readTick hrst (Phase.busy_of_timed ht).1).wait_of_edge (by simp [hlow, hs])
  rw [hiff, hlevel.shown ht hw]

/-- A tick without an edge, in a phase that accepts commands or without a reset, is no event. -/
theorem State.TickEffect.contract_of_no_edge {s : State} {e : Engine} (he : s.TickEffect e) (n : Nat) (h5 : s.eng.Inv5)
    (hr : s.eng.phase.ready = true ∨ s.pins.rst = false) (hs : e.sck = s.eng.sck) :
    (s.chip.react n s.pins.rst s.eng e).inContract = s.chip.inContract := by
  have high : s.eng.phase = .pdown → e.sck = true := fun hp => by rw [hs]; exact h5.2 (.inl hp)
  refine Chip.react_inContract_of_no_edge (fun hrst => ⟨by simpa [hrst] using hr, fun hp => ?_⟩)
    (fun hp => by_contra fun hp' => ?_) hs.symm
  · simpa [he.sck_of_reset hrst] using high hp
  · simpa [he.sck_of_wake hp hp'] using high hp

/-- Settles O59: each clause is one event of the chip's reaction; the level a read ends has stood for `cfg_dly + 1` ticks, and
leaving PDOWN or a reset makes an edge. -/
theorem chipContractEvents : Obligations.ChipContractEvents := by
  intro s t h ht
  obtain ⟨htick, hchip, _⟩ := step_effect ht
  obtain ⟨⟨⟨_, _, _, _, h5, _⟩, _⟩, _⟩ := id h
  rw [hchip]
  refine ⟨fun hrst hr => ?_, fun hp hp' => ?_, fun hrst hp hw => ?_, fun hrst hp hs => ?_, fun hrst hp hs => ?_,
    htick.contract_of_no_edge _ h5, ?_⟩
  · simpa [hrst] using Chip.react_inContract_of_cut hr
  · simp [Chip.react_inContract_of_wake hp hp']
  · simpa [hrst, and_assoc] using htick.contract_of_high (s.tick + 1) h hrst hp hw
  · simpa [hrst] using htick.contract_of_low (s.tick + 1) h hrst hp hs
  · simpa [hrst] using (Chip.react_inContract_of_rise h5 (.inr (.inr hp)) hs).2
  · simp [Chip.levelAfter, eq_comm]

end Sys2Proof.Machine
end

section
/-!
PROOFS. Reset (R181): of all that a tick can do to the engine, a reset tick does the reset alone.
-/
namespace Sys2Proof.Machine

/-- With `rst` high every other effect of a tick is ruled out, whatever the phase and the ports (R181). -/
theorem State.TickEffect.eq_reset {s : State} {e : Engine} (he : s.TickEffect e) (hrst : s.pins.rst = true) :
    e = .reset := by
  cases he with
  | reset => rfl
  | wait hlow => simp [hlow] at hrst
  | command hlow => simp [hlow] at hrst
  | read hlow => simp [hlow] at hrst

/-- Settles O12: the block's tick and a step each have an effect of `State.TickEffect`, which is the reset. -/
theorem resetWins : Obligations.ResetWins := by
  intro s hrst
  obtain ⟨e, htick, heff⟩ := engineTick_effect s
  exact ⟨heff.eq_reset hrst ▸ htick, fun t hstep => (step_effect hstep).1.eq_reset hrst⟩

end Sys2Proof.Machine
end
